-- ==== Sys2Proof/Word.lean ====
section
/-! DEFINITION. The value domain of the core. The word type is `Int` itself: a register, an immediate operand, an operand
field of a record and the program counter each hold a mathematical integer (R8, R21, R26). It is no bit vector: the spec
gives a register no byte or bit layout (R53) and every operation is exact (R103). A finite `REG_WIDTH` is a range check
on this domain, never a wrap (R104). -/

namespace Sys2Proof

/-- `REG_WIDTH` (R7, R29): the value domain of a register. The spec's default is `UNBOUNDED`. The machine holds its
setting in `CFG.REG_WIDTH`, so every statement about all states is a statement about every setting. -/
inductive RegWidth where
  /-- `UNBOUNDED`: any mathematical integer. -/
  | unbounded
  /-- `W`: signed integers of `w` bits; legal for `w ≥ 64` only (R7, R29). -/
  | finite (w : Nat)
  deriving DecidableEq, Repr

/-- The legal settings of `REG_WIDTH`: "`UNBOUNDED` or `W` (a `Nat`, `W >= 64`)" (R29). -/
def RegWidth.legal : RegWidth → Bool
  | .unbounded => true
  | .finite w => decide (64 ≤ w)

end Sys2Proof
end

