-- ==== Sys2Proof/Syntax.lean ====
section
/-! DEFINITION. The instruction record, the sixteen instructions, the operand kinds and the text form of a program. -/

namespace Sys2Proof

/-- The instruction record, format `R4` (R70): an 8-bit opcode tag and three whole integers. `A`, `B` and `C` are not
bit fields: "they are not truncated, sign-extended, scaled or shifted when decoded". -/
structure Record where
  /-- `op[7:0]`. -/
  op : BitVec 8
  /-- First operand: a register index or an immediate, by the opcode. -/
  a : Int
  /-- Second operand: a register index, an immediate or ignored, by the opcode. -/
  b : Int
  /-- Destination register index, for every opcode. -/
  c : Int
  deriving DecidableEq, Repr

/-- The sixteen instructions (R72), each with its record's `A`, `B` and `C` as they stand. Whether a register field
names a register is a question of `NREG`, answered by `Instr.wellFormed`. -/
inductive Instr where
  /-- `x[C] <- x[A] + x[B]` (R105). -/
  | addr (a b c : Int)
  /-- `x[C] <- x[A] + B` (R106). -/
  | addi (a b c : Int)
  /-- `x[C] <- x[A] * x[B]` (R107). -/
  | mulr (a b c : Int)
  /-- `x[C] <- x[A] * B` (R108). -/
  | muli (a b c : Int)
  /-- `x[C] <- x[A] & x[B]` (R121). -/
  | banr (a b c : Int)
  /-- `x[C] <- x[A] & B` (R122). -/
  | bani (a b c : Int)
  /-- `x[C] <- x[A] | x[B]` (R123). -/
  | borr (a b c : Int)
  /-- `x[C] <- x[A] | B` (R124). -/
  | bori (a b c : Int)
  /-- `x[C] <- x[A]`, `B` ignored (R140). -/
  | setr (a b c : Int)
  /-- `x[C] <- A`, `B` ignored (R141). -/
  | seti (a b c : Int)
  /-- `x[C] <- b2i(x[A] > x[B])` (R151). -/
  | gtrr (a b c : Int)
  /-- `x[C] <- b2i(x[A] > B)` (R152). -/
  | gtri (a b c : Int)
  /-- `x[C] <- b2i(A > x[B])` (R153). -/
  | gtir (a b c : Int)
  /-- `x[C] <- b2i(x[A] == x[B])` (R154). -/
  | eqrr (a b c : Int)
  /-- `x[C] <- b2i(x[A] == B)` (R155). -/
  | eqri (a b c : Int)
  /-- `x[C] <- b2i(A == x[B])` (R156). -/
  | eqir (a b c : Int)
  deriving DecidableEq, Repr

/-- The kind of an operand position (R72, R73). -/
inductive OperandKind where
  /-- `r`: the field is a register index, the operand its value. -/
  | reg
  /-- `i`: the field is the operand. -/
  | imm
  /-- `-`: neither read nor checked (R76). -/
  | ignored
  deriving DecidableEq, Repr

/-- The kind of `A`, by the opcode (R72's table). -/
def Instr.kindA : Instr → OperandKind
  | .addr .. | .addi .. | .mulr .. | .muli .. | .banr .. | .bani .. | .borr .. | .bori .. => .reg
  | .setr .. | .gtrr .. | .gtri .. | .eqrr .. | .eqri .. => .reg
  | .seti .. | .gtir .. | .eqir .. => .imm

/-- The kind of `B`, by the opcode (R72's table). -/
def Instr.kindB : Instr → OperandKind
  | .addr .. | .mulr .. | .banr .. | .borr .. | .gtrr .. | .gtir .. | .eqrr .. | .eqir .. => .reg
  | .addi .. | .muli .. | .bani .. | .bori .. | .gtri .. | .eqri .. => .imm
  | .setr .. | .seti .. => .ignored

/-- The fields `A`, `B` and `C` of an instruction's record. -/
def Instr.fields : Instr → Int × Int × Int
  | .addr a b c | .addi a b c | .mulr a b c | .muli a b c | .banr a b c | .bani a b c | .borr a b c | .bori a b c
  | .setr a b c | .seti a b c | .gtrr a b c | .gtri a b c | .gtir a b c | .eqrr a b c | .eqri a b c
  | .eqir a b c => (a, b, c)

/-- `A` of an instruction's record. -/
def Instr.fieldA (i : Instr) : Int := i.fields.1

/-- `B` of an instruction's record. -/
def Instr.fieldB (i : Instr) : Int := i.fields.2.1

/-- `C` of an instruction's record: the destination register index, for every opcode (R75). -/
def Instr.dest (i : Instr) : Int := i.fields.2.2

/-- One instruction line of a program's text, already cut into its four tokens, the last three read as integers (R80):
`<opcode-tag> <A> <B> <C>`. Cutting text into tokens is the external parser's (R6). -/
structure TextLine where
  /-- The opcode tag, as written. -/
  tag : String
  /-- `A`. -/
  a : Int
  /-- `B`. -/
  b : Int
  /-- `C`. -/
  c : Int
  deriving DecidableEq, Repr

/-- A program's text in tokens (R80): the optional bound-register directive and the instruction lines. -/
structure TextProgram where
  /-- The `n` of the directive `#ip <n>`; absent where no register is bound. -/
  directive : Option Int
  /-- The instruction lines; line `k` is `PROG[k]`. -/
  lines : List TextLine
  deriving DecidableEq, Repr

end Sys2Proof
end

