-- ==== Sys2Proof/Decode.lean ====
section
/-! DEFINITION. The decoder, total on every record; the encoder, written from the same table (R72); the text form. -/

namespace Sys2Proof

/-- Why a record is no instruction (R78). -/
inductive DecodeError where
  /-- `op` is none of the sixteen values `0x00` to `0x0F`: `E_OPCODE`. -/
  | illegalOpcode (op : BitVec 8)
  deriving DecidableEq, Repr

/-- Decoding (R72, R79): every record is exactly one of the sixteen instructions, or its opcode is illegal. -/
def decode (r : Record) : Except DecodeError Instr :=
  match r.op.toNat with
  | 0x00 => .ok (.addr r.a r.b r.c)
  | 0x01 => .ok (.addi r.a r.b r.c)
  | 0x02 => .ok (.mulr r.a r.b r.c)
  | 0x03 => .ok (.muli r.a r.b r.c)
  | 0x04 => .ok (.banr r.a r.b r.c)
  | 0x05 => .ok (.bani r.a r.b r.c)
  | 0x06 => .ok (.borr r.a r.b r.c)
  | 0x07 => .ok (.bori r.a r.b r.c)
  | 0x08 => .ok (.setr r.a r.b r.c)
  | 0x09 => .ok (.seti r.a r.b r.c)
  | 0x0A => .ok (.gtrr r.a r.b r.c)
  | 0x0B => .ok (.gtri r.a r.b r.c)
  | 0x0C => .ok (.gtir r.a r.b r.c)
  | 0x0D => .ok (.eqrr r.a r.b r.c)
  | 0x0E => .ok (.eqri r.a r.b r.c)
  | 0x0F => .ok (.eqir r.a r.b r.c)
  | _ => .error (.illegalOpcode r.op)

/-- The opcode number of an instruction (R72). -/
def opcode : Instr → BitVec 8
  | .addr .. => 0x00#8
  | .addi .. => 0x01#8
  | .mulr .. => 0x02#8
  | .muli .. => 0x03#8
  | .banr .. => 0x04#8
  | .bani .. => 0x05#8
  | .borr .. => 0x06#8
  | .bori .. => 0x07#8
  | .setr .. => 0x08#8
  | .seti .. => 0x09#8
  | .gtrr .. => 0x0A#8
  | .gtri .. => 0x0B#8
  | .gtir .. => 0x0C#8
  | .eqrr .. => 0x0D#8
  | .eqri .. => 0x0E#8
  | .eqir .. => 0x0F#8

/-- The record of an instruction (R70, R72): one record, whatever the instruction (R71). -/
def encode (i : Instr) : Record := ⟨opcode i, i.fieldA, i.fieldB, i.dest⟩

/-- The record of a table word: the table gives a row the 8 bits of `op` and no bit to `A`, `B` and `C`, which are then
the integer 0 (DESIGN CHOICE: log entry 11). A word with a bit above those 8 is no record's. -/
def recordOfWord (nbits w : Nat) : Option Record :=
  if w % 2 ^ nbits < 256 then some ⟨BitVec.ofNat 8 (w % 2 ^ nbits), 0, 0, 0⟩ else none

/-- The instruction the decoder reads from an instruction word of the opcode table. -/
def decodeTableWord (nbits w : Nat) : Option Instr :=
  match recordOfWord nbits w with
  | none => none
  | some r =>
    match decode r with
    | .ok i => some i
    | .error _ => none

/-- The sixteen mnemonics with their opcode numbers (R72, R80). -/
def mnemonicTable : List (String × BitVec 8) :=
  [("addr", 0x00#8), ("addi", 0x01#8), ("mulr", 0x02#8), ("muli", 0x03#8),
   ("banr", 0x04#8), ("bani", 0x05#8), ("borr", 0x06#8), ("bori", 0x07#8),
   ("setr", 0x08#8), ("seti", 0x09#8), ("gtrr", 0x0A#8), ("gtri", 0x0B#8),
   ("gtir", 0x0C#8), ("eqrr", 0x0D#8), ("eqri", 0x0E#8), ("eqir", 0x0F#8)]

/-- The mnemonic of an instruction (R72). -/
def mnemonic : Instr → String
  | .addr .. => "addr"
  | .addi .. => "addi"
  | .mulr .. => "mulr"
  | .muli .. => "muli"
  | .banr .. => "banr"
  | .bani .. => "bani"
  | .borr .. => "borr"
  | .bori .. => "bori"
  | .setr .. => "setr"
  | .seti .. => "seti"
  | .gtrr .. => "gtrr"
  | .gtri .. => "gtri"
  | .gtir .. => "gtir"
  | .eqrr .. => "eqrr"
  | .eqri .. => "eqri"
  | .eqir .. => "eqir"

/-- The opcode number a text line's tag stands for: "mnemonics are matched exactly, in the lower case of rule R72" (R80,
R81). A tag that is none of the sixteen gets an illegal number, so that the launch refuses its line with `E_OPCODE` at
its index (R78, R212); which illegal number is observable nowhere (DESIGN CHOICE, safe:
log entry 12). -/
def opOfTag (tag : String) : BitVec 8 :=
  match mnemonicTable.find? (fun row => row.1 == tag) with
  | some row => row.2
  | none => 0xFF#8

/-- Text to record (R81): the tag's number, and the three integers unchanged. -/
def recordOfLine (ln : TextLine) : Record := ⟨opOfTag ln.tag, ln.a, ln.b, ln.c⟩

end Sys2Proof
end

