-- ==== Sys2Proof/Config.lean ====
section
/-! DEFINITION. The values the spec leaves unspecified, each a constant without a body (DESIGN CHOICE, safe:
log entry 4). (What an implementation fixes,
`REG_WIDTH`, is a field of `CFG`: R29.) -/

namespace Sys2Proof

/-- What `CFG.IPB_IDX` holds after a launch that binds no register: "unspecified and never read when `IPB_VALID = 0`"
(R29). Free: no body, so nothing can be proved of its value. Its argument is the machine's count of launches. -/
opaque Config.freeIpbIdx : Nat → Nat

/-- What `STATUS.ERR_INDEX` holds after a successful launch: "unspecified while `ERR_CODE = 0`" (R30). Free, as above. -/
opaque Config.freeErrIndex : Nat → Int

/-- Which field a launch reports for code 1 when `NREG < 1` AND the length of `INIT` differs from `NREG`: the spec says
only "`INIT` or `NREG`" (R212, R240). Free, as above: true stands for `INIT`, false for `NREG`. Its arguments are `NREG`
and the length of `INIT`, so that launches with the same inputs report the same. -/
opaque Config.freeRegCountFieldIsInit : Int → Nat → Bool

end Sys2Proof
end

