-- ==== Sys2Proof/Machine/Flags.lean ====
section
/-! DEFINITION. The tests whose truth value the machine acts on. The core has no flags or condition codes (R28): a
comparison writes `b2i` of its truth value into the destination, and the only other tests are range checks. -/

namespace Sys2Proof.Machine

/-- `b2i(c) := 1 if c else 0` (R9). -/
def b2i (c : Bool) : Int := if c then 1 else 0

/-- `b2i(u > v)`, the signed strict comparison of integers (R150). -/
def gtBit (u v : Int) : Int := b2i (decide (u > v))

/-- `b2i(u == v)` (R150). -/
def eqBit (u v : Int) : Int := b2i (decide (u = v))

/-- `inRange_W(v) := -2^(W-1) <= v <= 2^(W-1) - 1` for a finite `REG_WIDTH` (R8); every integer is in range of
`UNBOUNDED`. -/
def inRange : RegWidth → Int → Bool
  | .unbounded, _ => true
  | .finite w, v => decide (-(2 ^ (w - 1) : Int) ≤ v) && decide (v ≤ (2 ^ (w - 1) : Int) - 1)

/-- `0 <= f < NREG`: the field `f` names a register of a file of `nreg` (R20, R77). -/
def inFile (nreg : Nat) (f : Int) : Bool := decide (0 ≤ f) && decide (f < (nreg : Int))

end Sys2Proof.Machine
end

