-- ==== Sys2Proof/Machine/State.lean ====
section
/-! DEFINITION. The machine's whole state as plain data, its faults and refusals, and the state after reset. -/

namespace Sys2Proof.Machine

/-- Why a step stops without a next state. No state that a launch gives can reach one of these (R77, R183, R210): each is
a guard on states outside the machine the spec describes (DESIGN CHOICE: log entry 3). Errors that the spec describes are no faults in this sense: they
are recorded in `STATUS` (R30, R212) by a next state. -/
inductive Fault where
  /-- A register index names no register: raised by a register read or write of an instruction or of a mirror step. The
  spec checks every index at launch (R77, R212); the file is "never silently" extended or wrapped (R22). SAFE: the model
  stops where the spec describes no machine. -/
  | noSuchRegister
  /-- The program store holds no record at an index below `CFG.L`: raised by the fetch. A launch stores exactly `CFG.L`
  records (R240). SAFE, as above. -/
  | noSuchRecord
  /-- The fetched record's opcode is none of the sixteen: raised by the step. "Decoding cannot fail at run time" (R183).
  SAFE, as above. -/
  | undecodable
  deriving DecidableEq, Repr

/-- Why the model gives no meaning. -/
inductive Refusal where
  /-- The instruction has no meaning yet: raised by an arm of `exec`. SAFE: nothing is claimed of it. No arm of this
  model raises it. -/
  | notModelled (mnemonic : String)
  deriving DecidableEq, Repr

/-- `STATUS.STATE` (R30): the engine's state, or the outcome of the run. All but `running` are terminal. -/
inductive RunState where
  /-- `RUNNING`. -/
  | running
  /-- `HALTED`: the normal end. -/
  | halted
  /-- `LOAD_ERROR`: the launch refused the program or the configuration. -/
  | loadError
  /-- `OVERFLOW`: a result out of range of a finite `REG_WIDTH`. -/
  | overflow
  /-- `BUDGET_EXCEEDED`: the external step budget ran out. -/
  | budgetExceeded
  deriving DecidableEq, Repr

/-- `STATUS.ERR_CODE` by name (R212); `ErrCode.number` in Machine/Ports.lean gives the numbers. -/
inductive ErrCode where
  /-- 0: no error. -/
  | noError
  /-- 1, `E_REGCOUNT`: the length of `INIT` differs from `NREG`, or `NREG < 1`. -/
  | regCount
  /-- 2, `E_IPB_RANGE`: the bound register index names no register. -/
  | ipbRange
  /-- 3, `E_INIT_RANGE`: an initial value is out of range of a finite `REG_WIDTH`. -/
  | initRange
  /-- 4, `E_OPCODE`: the opcode is none of the sixteen. -/
  | opcode
  /-- 5, `E_DEST_RANGE`: `C` names no register. -/
  | destRange
  /-- 6, `E_SRC_RANGE`: a register operand names no register. -/
  | srcRange
  /-- 7, `E_IMM_RANGE`: an immediate is out of range of a finite `REG_WIDTH`. -/
  | immRange
  /-- 16, `E_OVERFLOW`: a result is out of range of a finite `REG_WIDTH`. -/
  | overflow
  deriving DecidableEq, Repr

/-- `STATUS.ERR_FIELD` (R30). -/
inductive ErrField where
  /-- `none`. -/
  | noField
  /-- `op`. -/
  | op
  /-- `A`. -/
  | a
  /-- `B`. -/
  | b
  /-- `C`. -/
  | c
  /-- `INIT`. -/
  | init
  /-- `IPB`. -/
  | ipb
  /-- `NREG`. -/
  | nreg
  /-- `result`. -/
  | result
  deriving DecidableEq, Repr

/-- The configuration register `CFG` (R29): written only by a launch. -/
structure Cfg where
  /-- `CFG.IPB_VALID`: a bound register is declared. -/
  ipbValid : Bool
  /-- `CFG.IPB_IDX`: its index; unspecified and never read where `IPB_VALID = 0`. -/
  ipbIdx : Nat
  /-- `CFG.NREG`: the register count. -/
  nreg : Nat
  /-- `CFG.L`: the program's length. -/
  len : Nat
  /-- `CFG.ENTRY_PC`: the initial program counter. -/
  entryPc : Int
  /-- `CFG.REG_WIDTH`: fixed by the implementation (log entry 9). -/
  regWidth : RegWidth
  deriving DecidableEq, Repr

/-- The status register `STATUS` (R30): written only by the engine and by a launch. -/
structure Status where
  /-- `STATUS.STATE`. -/
  state : RunState
  /-- `STATUS.ERR_CODE`. -/
  errCode : ErrCode
  /-- `STATUS.ERR_INDEX`: the instruction's index, -1 for a launch-level error; unspecified while there is no error. -/
  errIndex : Int
  /-- `STATUS.ERR_FIELD`. -/
  errField : ErrField
  /-- `STATUS.STEPS`: instructions executed so far in this run. -/
  steps : Nat
  deriving DecidableEq, Repr

/-- The whole machine: the execution state (register file and program counter, R28), the program store (R51), the two
registers `CFG` and `STATUS`, the step budget of the external wrapper (R220) and the output `FINAL_REGS` (R34). -/
structure State where
  /-- The register file `x[0]` to `x[NREG-1]` (R20). -/
  regs : List Int
  /-- The program counter `pc` (R26), counted in instructions. -/
  pc : Int
  /-- The program store `PROG[0]` to `PROG[L-1]` (R51). -/
  prog : List Record
  /-- `CFG` (R29). -/
  cfg : Cfg
  /-- `STATUS` (R30). -/
  status : Status
  /-- `STEP_BUDGET` (R34, R220): none, or the limit on executed instructions. -/
  stepBudget : Option Nat
  /-- `FINAL_REGS` (R34): none while it is not defined, that is, in every run state but `HALTED`. -/
  finalRegs : Option (List Int)
  /-- The MODEL's own: how many launches the machine has had. Only the free values of Config read it (DESIGN CHOICE, safe:
  log entry 15). -/
  launches : Nat
  deriving DecidableEq, Repr

/-- The inputs of a launch (R34, R240). `IPB` and `NREG` are integers here, so that the checks that refuse a negative one
(R212) have something to refuse (DESIGN CHOICE, safe: log entry 13). -/
structure LaunchInputs where
  /-- `PROG`. -/
  prog : List Record
  /-- `IPB`: none, or the bound register index. -/
  ipb : Option Int
  /-- `NREG`: the declared register count. -/
  nreg : Int
  /-- `INIT`: the initial register file. -/
  init : List Int
  /-- `ENTRY_PC`, default 0 (R240). -/
  entryPc : Int := 0
  /-- `STEP_BUDGET`, default none (R240). -/
  stepBudget : Option Nat := none
  deriving DecidableEq, Repr

/-- The machine right after reset. The core has no power-on reset; the launch "is this core's reset"
(spec/70_reset_and_hazards.md), and this is the state after a launch of the empty program with every optional input at the
default the spec gives it. DESIGN CHOICE (log entry 1): six registers, each holding 0, since the caller supplies them and
the spec gives no value; `CFG.IPB_IDX` and `STATUS.ERR_INDEX`, unspecified here, are 0. -/
def State.reset : State where
  regs := [0, 0, 0, 0, 0, 0]
  pc := 0
  prog := []
  cfg := { ipbValid := false, ipbIdx := 0, nreg := 6, len := 0, entryPc := 0, regWidth := .unbounded }
  status := { state := .running, errCode := .noError, errIndex := 0, errField := .noField, steps := 0 }
  stepBudget := none
  finalRegs := none
  launches := 0

end Sys2Proof.Machine
end

