-- ==== Sys2Proof/Machine/Ops.lean ====
section
/-! DEFINITION. The named operations over the register file, the program store, the program counter and `STATUS`, and the
ONE operation that raises an error. -/

namespace Sys2Proof.Machine

/-- `0 <= i < NREG` for the register file as it stands (R20, R52). -/
def State.hasReg (s : State) (i : Int) : Bool := inFile s.regs.length i

/-- `x[i]` (R10): the whole value of register `i` (R55); none where no register has that index. A read changes nothing
(R57). -/
def State.readReg (s : State) (i : Int) : Option Int := if 0 ≤ i then s.regs[i.toNat]? else none

/-- `x[i] <- v` (R10): replaces the whole value of register `i` (R55) and nothing else; none where no register has that
index: the file is never extended, and no index wraps (R22). -/
def State.writeReg (s : State) (i v : Int) : Option State :=
  if s.hasReg i then some { s with regs := s.regs.set i.toNat v } else none

/-- `pc <- v` (R10). -/
def State.setPc (s : State) (v : Int) : State := { s with pc := v }

/-- The halt check of step (a) (R182): `pc < 0 or pc >= L`. -/
def State.pcOutside (s : State) : Bool := decide (s.pc < 0) || decide ((s.cfg.len : Int) ≤ s.pc)

/-- `Fetch(pc) := PROG[pc]` (R11, R183), the only read of the program store. -/
def State.fetch (s : State) : Option Record := if 0 ≤ s.pc then s.prog[s.pc.toNat]? else none

/-- The bound register's index `ip`, where one is bound (R10, R29); `CFG.IPB_IDX` is read only then. -/
def State.boundReg (s : State) : Option Nat := if s.cfg.ipbValid then some s.cfg.ipbIdx else none

/-- RAISING AN ERROR, the one shared operation: the run or the launch ends in the terminal state `st`, and `STATUS` records
the code, the index and the field (R12, R104, R213, R216). There is no trap: no state is saved, no mode or mask changes,
there is no vector or handler, and therefore no return from an error (R219). -/
def State.raiseError (s : State) (st : RunState) (code : ErrCode) (index : Int) (field : ErrField) : State :=
  { s with status := { s.status with state := st, errCode := code, errIndex := index, errField := field } }

/-- `raise Overflow(pc)` (R104, R216): only `STATUS` changes; the destination is not written. -/
def State.overflow (s : State) : State := s.raiseError .overflow .overflow s.pc .result

/-- The normal end, step (a) (R181, R182): `STATUS.STATE <- HALTED; FINAL_REGS <- x`. -/
def State.halt (s : State) : State :=
  { s with status := { s.status with state := .halted }, finalRegs := some s.regs }

/-- The wrapper's end, step (a) (R181, R220): `STATUS.STATE <- BUDGET_EXCEEDED`; it gives no register file. -/
def State.exhaustBudget (s : State) : State :=
  { s with status := { s.status with state := .budgetExceeded } }

/-- `STATUS.STEPS <- STATUS.STEPS + 1` (R181). -/
def State.countStep (s : State) : State :=
  { s with status := { s.status with steps := s.status.steps + 1 } }

/-- Places `r` where the next fetch reads, in a running machine (for `State.withFetchWord`): at `pc` where `pc` indexes the
program, else as a program of one record with `pc` at its start. The step budget is lifted where it would stop that step. -/
def State.placeRecord (s : State) (r : Record) : State :=
  let t := { s with
    status := { s.status with state := .running }
    stepBudget := if s.stepBudget = some s.status.steps then none else s.stepBudget }
  if 0 ≤ s.pc ∧ s.pc < (s.cfg.len : Int) ∧ s.prog.length = s.cfg.len then
    { t with prog := s.prog.set s.pc.toNat r }
  else
    { t with prog := [r], cfg := { s.cfg with len := 1 }, pc := 0 }

end Sys2Proof.Machine
end

