-- ==== Sys2Proof/Machine/Operands.lean ====
section
/-! DEFINITION. The operand forms, the write of a result, and the one shape all sixteen instructions have (R101). -/

namespace Sys2Proof.Machine

/-- An operand, by the kind the opcode gives its position (R73). -/
inductive Operand where
  /-- Kind `r`: the value of the register whose index is the field. -/
  | reg (field : Int)
  /-- Kind `i`: the field itself. -/
  | imm (field : Int)
  deriving DecidableEq, Repr

/-- `opval(kind, F) := if kind == r then x[F] else F` (R74): no extension, scaling or shift. -/
def opval (s : State) : Operand → Option Int
  | .reg f => s.readReg f
  | .imm f => some f

/-- The end of `Exec` (R101): with a finite `REG_WIDTH`, a result out of range raises the overflow and is not written
(R104); else `x[C] <- v`, even where the value is the same (R102). -/
def writeResult (s : State) (c v : Int) : Host.Outcome State Fault Refusal :=
  match s.writeReg c v with
  | none => .fault .noSuchRegister
  | some t => if inRange s.cfg.regWidth v then .next t else .next s.overflow

/-- `Exec` for an opcode with one operand (R101): the operand is read from the input register file, then `x[C]` is
written, once. -/
def exec1 (f : Int → Int) (a : Operand) (c : Int) (s : State) : Host.Outcome State Fault Refusal :=
  match opval s a with
  | some u => writeResult s c (f u)
  | none => .fault .noSuchRegister

/-- `Exec` for an opcode with two operands (R101): both operands are read from the input register file before `x[C]` is
written, once. -/
def exec2 (f : Int → Int → Int) (a b : Operand) (c : Int) (s : State) : Host.Outcome State Fault Refusal :=
  match opval s a, opval s b with
  | some u, some v => writeResult s c (f u v)
  | _, _ => .fault .noSuchRegister

end Sys2Proof.Machine
end

