-- ==== Sys2Proof/Machine/Arithmetic.lean ====
section
/-! DEFINITION. Add and Multiply (spec/40_arithmetic.md): exact integer results (R103). -/

namespace Sys2Proof.Machine

/-- `addr A B C`: `x[C] <- x[A] + x[B]` (R105). -/
def execAddr (a b c : Int) (s : State) : Host.Outcome State Fault Refusal :=
  exec2 (fun u v => u + v) (.reg a) (.reg b) c s

/-- `addi A b C`: `x[C] <- x[A] + B` (R106). -/
def execAddi (a b c : Int) (s : State) : Host.Outcome State Fault Refusal :=
  exec2 (fun u v => u + v) (.reg a) (.imm b) c s

/-- `mulr A B C`: `x[C] <- x[A] * x[B]` (R107). -/
def execMulr (a b c : Int) (s : State) : Host.Outcome State Fault Refusal :=
  exec2 (fun u v => u * v) (.reg a) (.reg b) c s

/-- `muli A b C`: `x[C] <- x[A] * B` (R108). -/
def execMuli (a b c : Int) (s : State) : Host.Outcome State Fault Refusal :=
  exec2 (fun u v => u * v) (.reg a) (.imm b) c s

end Sys2Proof.Machine
end

