-- ==== Sys2Proof/Machine/Assignment.lean ====
section
/-! DEFINITION. Assignment (spec/42_assignment.md). The field `B` is neither read nor checked (R76): neither meaning
takes it. -/

namespace Sys2Proof.Machine

/-- `setr A B C`: `x[C] <- x[A]` (R140). -/
def execSetr (a c : Int) (s : State) : Host.Outcome State Fault Refusal :=
  exec1 (fun u => u) (.reg a) c s

/-- `seti a B C`: `x[C] <- A` (R141). -/
def execSeti (a c : Int) (s : State) : Host.Outcome State Fault Refusal :=
  exec1 (fun u => u) (.imm a) c s

end Sys2Proof.Machine
end

