-- ==== Sys2Proof/Machine/Bits.lean ====
section
/-! DEFINITION. Bitwise AND and OR on integers, and the bit of an integer they are stated by. PRESUMED, unsafe (log entry
10): the two's-complement reading of negative integers, which the spec supplies from general knowledge (R9, R120). -/

namespace Sys2Proof.Machine

/-- `bit_k(v) := floor(v / 2^k) mod 2` (R9): the two's-complement bit with the sign extended without limit. -/
def bitAt (k : Nat) (v : Int) : Int := v / (2 ^ k : Int) % 2

/-- The natural number with the bits of `m` that `n` does not have. -/
def natAndNot (m n : Nat) : Nat := m ^^^ (m &&& n)

/-- `u & v` on the two's-complement bits without limit (R120). A negative integer `-(n+1)` has the complement of the
bits of `n`, so each sign case is an operation on naturals. -/
def intAnd : Int → Int → Int
  | .ofNat m, .ofNat n => .ofNat (m &&& n)
  | .ofNat m, .negSucc n => .ofNat (natAndNot m n)
  | .negSucc m, .ofNat n => .ofNat (natAndNot n m)
  | .negSucc m, .negSucc n => .negSucc (m ||| n)

/-- `u | v` on the two's-complement bits without limit (R120). -/
def intOr : Int → Int → Int
  | .ofNat m, .ofNat n => .ofNat (m ||| n)
  | .ofNat m, .negSucc n => .negSucc (natAndNot n m)
  | .negSucc m, .ofNat n => .negSucc (natAndNot m n)
  | .negSucc m, .negSucc n => .negSucc (m &&& n)

end Sys2Proof.Machine
end

