-- ==== Sys2Proof/Machine/Bitwise.lean ====
section
/-! DEFINITION. Bitwise AND and OR (spec/41_bitwise.md), on two's-complement bits without limit (R120). -/

namespace Sys2Proof.Machine

/-- `banr A B C`: `x[C] <- x[A] & x[B]` (R121). -/
def execBanr (a b c : Int) (s : State) : Host.Outcome State Fault Refusal :=
  exec2 intAnd (.reg a) (.reg b) c s

/-- `bani A b C`: `x[C] <- x[A] & B` (R122). -/
def execBani (a b c : Int) (s : State) : Host.Outcome State Fault Refusal :=
  exec2 intAnd (.reg a) (.imm b) c s

/-- `borr A B C`: `x[C] <- x[A] | x[B]` (R123). -/
def execBorr (a b c : Int) (s : State) : Host.Outcome State Fault Refusal :=
  exec2 intOr (.reg a) (.reg b) c s

/-- `bori A b C`: `x[C] <- x[A] | B` (R124). -/
def execBori (a b c : Int) (s : State) : Host.Outcome State Fault Refusal :=
  exec2 intOr (.reg a) (.imm b) c s

end Sys2Proof.Machine
end

