-- ==== Sys2Proof/Machine/Comparison.lean ====
section
/-! DEFINITION. Greater-than and Equal (spec/43_comparison.md): signed, exactly 0 or 1 (R150). -/

namespace Sys2Proof.Machine

/-- `gtrr A B C`: `x[C] <- b2i(x[A] > x[B])` (R151). -/
def execGtrr (a b c : Int) (s : State) : Host.Outcome State Fault Refusal :=
  exec2 gtBit (.reg a) (.reg b) c s

/-- `gtri A b C`: `x[C] <- b2i(x[A] > B)` (R152). -/
def execGtri (a b c : Int) (s : State) : Host.Outcome State Fault Refusal :=
  exec2 gtBit (.reg a) (.imm b) c s

/-- `gtir a B C`: `x[C] <- b2i(A > x[B])` (R153). -/
def execGtir (a b c : Int) (s : State) : Host.Outcome State Fault Refusal :=
  exec2 gtBit (.imm a) (.reg b) c s

/-- `eqrr A B C`: `x[C] <- b2i(x[A] == x[B])` (R154). -/
def execEqrr (a b c : Int) (s : State) : Host.Outcome State Fault Refusal :=
  exec2 eqBit (.reg a) (.reg b) c s

/-- `eqri A b C`: `x[C] <- b2i(x[A] == B)` (R155). -/
def execEqri (a b c : Int) (s : State) : Host.Outcome State Fault Refusal :=
  exec2 eqBit (.reg a) (.imm b) c s

/-- `eqir a B C`: `x[C] <- b2i(A == x[B])` (R156). -/
def execEqir (a b c : Int) (s : State) : Host.Outcome State Fault Refusal :=
  exec2 eqBit (.imm a) (.reg b) c s

end Sys2Proof.Machine
end

