-- ==== Sys2Proof/Machine/Engine.lean ====
section
/-! DEFINITION. The execution engine: one step, sub-steps (a) to (g) of R181, in that order (R189). -/

namespace Sys2Proof.Machine

/-- Step (c), the IP-to-register mirror (R184): with a bound register, `x[ip] <- pc`; else nothing. None where the bound
index names no register. The value is `pc` itself, not range-checked (DEDUCED, unsafe: log entry 6). -/
def mirrorIn (s : State) : Option State :=
  match s.boundReg with
  | none => some s
  | some ip => s.writeReg ip s.pc

/-- Step (e), the register-to-IP mirror (R186): with a bound register, `pc <- x[ip]`, any integer; else nothing. -/
def mirrorOut (s : State) : Option State :=
  match s.boundReg with
  | none => some s
  | some ip =>
    match s.readReg ip with
    | none => none
    | some v => some (s.setPc v)

/-- The rest of a step after an instruction that did not end the run: the count of step (d), then (e), then (f)
`pc <- pc + 1` (R181, R187). -/
def finishStep (s : State) : Host.Outcome State Fault Refusal :=
  match mirrorOut s.countStep with
  | none => .fault .noSuchRegister
  | some t => .next (t.setPc (t.pc + 1))

/-- Steps (c) to (f) for the fetched instruction (R181). An overflow ends the run in step (d): the step then neither counts
nor performs (e) and (f) (R216); the copy of step (c) stays (DEDUCED: log entry 14). -/
def runInstr (i : Instr) (s : State) : Host.Outcome State Fault Refusal :=
  match mirrorIn s with
  | none => .fault .noSuchRegister
  | some m =>
    match exec i m with
    | .next t => if t.status.state = .running then finishStep t else .next t
    | .fault f => .fault f
    | .refused r => .refused r

/-- Steps (b) to (f): fetch (R183), decode, run. -/
def fetchAndRun (s : State) : Host.Outcome State Fault Refusal :=
  match s.fetch with
  | none => .fault .noSuchRecord
  | some r =>
    match decode r with
    | .error _ => .fault .undecodable
    | .ok i => runInstr i s

/-- One step of a running machine (R181): the halt check first (R182), then the budget test (R220), then the fetch. -/
def runningStep (s : State) : Host.Outcome State Fault Refusal :=
  if s.pcOutside then .next s.halt
  else if s.stepBudget = some s.status.steps then .next s.exhaustBudget
  else fetchAndRun s

/-- One step of the machine. The terminal states are final: "no later step changes any state" (R30, R226).
The model answers the same state there (DEDUCED, unsafe: log entry 5). -/
def engineStep (s : State) : Host.Outcome State Fault Refusal :=
  match s.status.state with
  | .running => runningStep s
  | .halted | .loadError | .overflow | .budgetExceeded => .next s

end Sys2Proof.Machine
end

