-- ==== Sys2Proof/Machine/Launch.lean ====
section
/-! DEFINITION. The launch, this core's reset (R240): its checks in their order (R214), and the state it leaves. -/

namespace Sys2Proof.Machine

/-- The checks 2 to 4 of R77 for a decoded instruction, in their order: `C`, register `A`, register `B`, immediate `A`,
immediate `B`; the code and the field of the first that fails (R214). -/
def instrError (nreg : Nat) (w : RegWidth) (i : Instr) : Option (ErrCode × ErrField) :=
  if !inFile nreg i.dest then some (.destRange, .c)
  else if i.kindA = .reg && !inFile nreg i.fieldA then some (.srcRange, .a)
  else if i.kindB = .reg && !inFile nreg i.fieldB then some (.srcRange, .b)
  else if i.kindA = .imm && !inRange w i.fieldA then some (.immRange, .a)
  else if i.kindB = .imm && !inRange w i.fieldB then some (.immRange, .b)
  else none

/-- R77 for one record: its opcode first, since it gives the operand kinds, then `instrError`. -/
def recordError (nreg : Nat) (w : RegWidth) (r : Record) : Option (ErrCode × ErrField) :=
  match decode r with
  | .error _ => some (.opcode, .op)
  | .ok i => instrError nreg w i

/-- R77 for the program from index `k` on: the first record, in ascending index, that fails a check (R214). -/
def programError (nreg : Nat) (w : RegWidth) : Nat → List Record → Option (ErrCode × Int × ErrField)
  | _, [] => none
  | k, r :: rest =>
    match recordError nreg w r with
    | some (code, field) => some (code, (k : Int), field)
    | none => programError nreg w (k + 1) rest

/-- Launch check 1 (R240, R212 code 1). Where both causes hold, which of the two fields is recorded is free (log
entry 4). -/
def regCountError (inp : LaunchInputs) : Option ErrField :=
  if inp.nreg < 1 then
    if (inp.init.length : Int) ≠ inp.nreg ∧ Config.freeRegCountFieldIsInit inp.nreg inp.init.length then some .init
    else some .nreg
  else if (inp.init.length : Int) ≠ inp.nreg then some .init
  else none

/-- Launch check 2 (R240, R212 code 2): a bound register index names a register. -/
def ipbBad (inp : LaunchInputs) : Bool :=
  match inp.ipb with
  | none => false
  | some ip => !inFile inp.nreg.toNat ip

/-- The first check of a launch that fails, with what it records: codes 1, 2, 3, then the program (R214, R240). -/
def launchError (w : RegWidth) (inp : LaunchInputs) : Option (ErrCode × Int × ErrField) :=
  match regCountError inp with
  | some field => some (.regCount, -1, field)
  | none =>
    if ipbBad inp then some (.ipbRange, -1, .ipb)
    else if !inp.init.all (inRange w) then some (.initRange, -1, .init)
    else programError inp.nreg.toNat w 0 inp.prog

/-- A launch that a check refuses (R213): only what the host reads changes. The program store, `CFG`, the register file
and `pc` stay as they were: "load errors are raised before any state changes" (R219; DEDUCED, unsafe:
log entry 7). -/
def refuseLaunch (code : ErrCode) (index : Int) (field : ErrField) (s : State) : State :=
  let t := s.raiseError .loadError code index field
  { t with status := { t.status with steps := 0 }, finalRegs := none, launches := s.launches + 1 }

/-- A launch whose checks pass, steps 5 to 8 (R240, R35). -/
def acceptLaunch (inp : LaunchInputs) (s : State) : State where
  regs := inp.init
  pc := inp.entryPc
  prog := inp.prog
  cfg :=
    { ipbValid := inp.ipb.isSome
      ipbIdx := match inp.ipb with
        | some ip => ip.toNat
        | none => Config.freeIpbIdx s.launches
      nreg := inp.nreg.toNat
      len := inp.prog.length
      entryPc := inp.entryPc
      regWidth := s.cfg.regWidth }
  status :=
    { state := .running
      errCode := .noError
      errIndex := Config.freeErrIndex s.launches
      errField := .noField
      steps := 0 }
  stepBudget := inp.stepBudget
  finalRegs := none
  launches := s.launches + 1

/-- The launch (R240): the host's one action on the machine. It replaces the outputs of an earlier run (R226).
DESIGN CHOICE, unsafe (log entry 21): a launch presented while a run is still `RUNNING` is taken like any other and ends
that run without an outcome. -/
def launch (inp : LaunchInputs) (s : State) : State :=
  match launchError s.cfg.regWidth inp with
  | some (code, index, field) => refuseLaunch code index field s
  | none => acceptLaunch inp s

/-- The launch inputs of a program's text (R80, R81): the directive gives `IPB`, the lines give `PROG`, and `ENTRY_PC` is
0 for every program in the text format (R242). -/
def inputsOfText (p : TextProgram) (nreg : Int) (init : List Int) (stepBudget : Option Nat) : LaunchInputs :=
  { prog := p.lines.map recordOfLine, ipb := p.directive, nreg := nreg, init := init, entryPc := 0,
    stepBudget := stepBudget }

end Sys2Proof.Machine
end

