-- ==== Sys2Proof/Machine/Ports.lean ====
section
/-! DEFINITION. The outputs of the block (R34): all that the host sees of a run, and only at its end (R56, R197). -/

namespace Sys2Proof.Machine

/-- The number of an error code in `STATUS.ERR_CODE` (R212). -/
def ErrCode.number : ErrCode → Nat
  | .noError => 0
  | .regCount => 1
  | .ipbRange => 2
  | .initRange => 3
  | .opcode => 4
  | .destRange => 5
  | .srcRange => 6
  | .immRange => 7
  | .overflow => 16

/-- The output `ERR`: (`ERR_CODE`, `ERR_INDEX`, `ERR_FIELD`). -/
structure ErrPort where
  /-- `ERR_CODE`. -/
  code : Nat
  /-- `ERR_INDEX`. -/
  index : Int
  /-- `ERR_FIELD`. -/
  field : ErrField
  deriving DecidableEq, Repr

/-- The result of a run (R197): the outcome and its payload. -/
inductive RunResult where
  /-- `HALTED` with `FINAL_REGS`. -/
  | halted (regs : List Int)
  /-- `LOAD_ERROR` with `ERR`. -/
  | loadError (err : ErrPort)
  /-- `OVERFLOW` with `ERR`. -/
  | overflow (err : ErrPort)
  /-- `BUDGET_EXCEEDED`, with no register result. -/
  | budgetExceeded
  deriving DecidableEq, Repr

/-- The output `OUTCOME` (R34): `STATUS.STATE` at the end of the run, none before it. -/
def State.outcomePort (s : State) : Option RunState :=
  match s.status.state with
  | .running => none
  | .halted => some .halted
  | .loadError => some .loadError
  | .overflow => some .overflow
  | .budgetExceeded => some .budgetExceeded

/-- The output `FINAL_REGS`: "defined only when `OUTCOME = HALTED`" (R34). -/
def State.finalRegsPort (s : State) : Option (List Int) :=
  match s.status.state with
  | .halted => s.finalRegs
  | .running | .loadError | .overflow | .budgetExceeded => none

/-- The output `ERR`: "defined only when `OUTCOME` is `LOAD_ERROR` or `OVERFLOW`" (R34). -/
def State.errPort (s : State) : Option ErrPort :=
  match s.status.state with
  | .loadError | .overflow => some ⟨s.status.errCode.number, s.status.errIndex, s.status.errField⟩
  | .running | .halted | .budgetExceeded => none

/-- The output `STEPS`: `STATUS.STEPS` at the end of the run (R34), none before it. -/
def State.stepsPort (s : State) : Option Nat :=
  match s.status.state with
  | .running => none
  | .halted | .loadError | .overflow | .budgetExceeded => some s.status.steps

/-- The result of the run that ended in this state (R197); none while it goes on. -/
def State.result (s : State) : Option RunResult :=
  match s.outcomePort with
  | none | some .running => none
  | some .halted => s.finalRegsPort.map .halted
  | some .loadError => s.errPort.map .loadError
  | some .overflow => s.errPort.map .overflow
  | some .budgetExceeded => some .budgetExceeded

end Sys2Proof.Machine
end

