-- ==== Sys2Proof/Machine/Step.lean ====
section
/-! DEFINITION. The step of the machine, and the placing of a table word where the next step fetches. -/

namespace Sys2Proof.Machine

/-- One engine step (R181), indivisible to every observer (R56). -/
def step (s : State) : Host.Outcome State Fault Refusal := engineStep s

/-- `s` with the instruction of a table word where the next step fetches it. A program reaches the store only by a launch
(R51); this stands for that load (log entry 2). A word that is no record's leaves `s` as it is. -/
def State.withFetchWord (s : State) (nbits w : Nat) : State :=
  match recordOfWord nbits w with
  | some r => s.placeRecord r
  | none => s

end Sys2Proof.Machine
end

