-- ==== Sys2Proof/WellFormed.lean ====
section
/-! DEFINITION. When an instruction is well-formed for a register count and a register width (R77, checks 2 to 4). -/

namespace Sys2Proof

/-- The check of one operand field, by its kind (R77 checks 3 and 4, R76): a register field names a register; an
immediate is in range; an ignored field is not checked. -/
def OperandKind.fieldOk (nreg : Nat) (w : RegWidth) : OperandKind → Int → Bool
  | .reg, f => Machine.inFile nreg f
  | .imm, f => Machine.inRange w f
  | .ignored, _ => true

/-- R77, checks 2 to 4, for an instruction: its destination and its register operands name registers of a file of
`nreg`, and its immediates are in range of `REG_WIDTH`. Check 1 (the opcode) is the decoder's. -/
def Instr.wellFormed (nreg : Nat) (w : RegWidth) (i : Instr) : Bool :=
  Machine.inFile nreg i.dest && i.kindA.fieldOk nreg w i.fieldA && i.kindB.fieldOk nreg w i.fieldB

end Sys2Proof
end

