-- ==== Sys2Proof/Safety.lean ====
section
/-! DEFINITION. The terms statements are written in: what a register holds, when a step executes an instruction, a run, what
a program can observe, and the invariant of the machine. -/

namespace Sys2Proof.Machine

/-- `k` steps from `s`, stopping at the first fault or refusal: the host's `Host.Core.run` of this machine
(`runSteps_eq_core_run` in Laws/Run.lean). -/
def runSteps : Nat → State → Host.Outcome State Fault Refusal
  | 0, s => .next s
  | k + 1, s =>
    match step s with
    | .next t => runSteps k t
    | .fault f => .fault f
    | .refused r => .refused r

/-- The register `x[i]` exists and holds `v`. -/
abbrev State.Holds (s : State) (i v : Int) : Prop := 0 ≤ i ∧ s.regs[i.toNat]? = some v

/-- The register `x[i]` exists: `0 <= i < NREG`, for the register file as it stands. -/
abbrev State.Names (s : State) (i : Int) : Prop := 0 ≤ i ∧ i < (s.regs.length : Int)

/-- `v` is a value of the machine's `REG_WIDTH`. -/
abbrev State.Fits (s : State) (v : Int) : Prop := inRange s.cfg.regWidth v = true

/-- `s` with `v` in `x[c]`, and nothing else changed. -/
def State.withReg (s : State) (c v : Int) : State := { s with regs := s.regs.set c.toNat v }

/-- `s` ended by the overflow fault of the instruction at `pc`: only these four fields of `STATUS` change (R104). -/
def State.overflowed (s : State) : State :=
  { s with status :=
      { s.status with state := .overflow, errCode := .overflow, errIndex := s.pc, errField := .result } }

/-- `s` after step (c), the IP-to-register mirror: `x[ip]` holds `pc` where a register is bound. -/
def State.mirrored (s : State) : State := if s.cfg.ipbValid then s.withReg s.cfg.ipbIdx s.pc else s

/-- `s` is running, `pc` indexes the program and no step budget is used up: the next step executes an instruction. -/
abbrev State.CanRun (s : State) : Prop :=
  s.status.state = .running ∧ 0 ≤ s.pc ∧ s.pc < (s.cfg.len : Int) ∧ s.stepBudget ≠ some s.status.steps

/-- The record at `pc` decodes to `i`. -/
abbrev State.Fetches (s : State) (i : Instr) : Prop :=
  ∃ r, 0 ≤ s.pc ∧ s.prog[s.pc.toNat]? = some r ∧ decode r = .ok i

/-- The register `ip` is bound, and it exists. -/
abbrev State.Binds (s : State) (ip : Nat) : Prop :=
  s.cfg.ipbValid = true ∧ s.cfg.ipbIdx = ip ∧ ip < s.regs.length

/-- The bound register, where there is one, exists. -/
abbrev State.BindingOk (s : State) : Prop := s.cfg.ipbValid = true → s.cfg.ipbIdx < s.regs.length

/-- The program store is well-formed: it holds `CFG.L` records, and each passes every check of R77. -/
def State.storeWf (s : State) : Bool :=
  decide (s.prog.length = s.cfg.len) &&
    s.prog.all (fun r => (recordError s.cfg.nreg s.cfg.regWidth r).isNone)

/-- THE INVARIANT of the machine: what a launch establishes and every step keeps. -/
structure State.Inv (s : State) : Prop where
  /-- `REG_WIDTH` is a legal setting (R7, R29). -/
  width : s.cfg.regWidth.legal = true
  /-- There is a register (R20). -/
  nreg_pos : 1 ≤ s.cfg.nreg
  /-- The register file has `NREG` registers (R20, R22). -/
  file : s.regs.length = s.cfg.nreg
  /-- The program store is well-formed (R51, R77). -/
  store : s.storeWf = true
  /-- A bound register exists (R29). -/
  binding : s.cfg.ipbValid = true → s.cfg.ipbIdx < s.cfg.nreg
  /-- Every register holds a value of `REG_WIDTH` (R21). -/
  regs_fit : ∀ v ∈ s.regs, inRange s.cfg.regWidth v = true
  /-- Every instruction index is a value of `REG_WIDTH`, as R198 takes it for a finite one (log entry 6). -/
  indices_fit : ∀ k < s.cfg.len, inRange s.cfg.regWidth (k : Int) = true
  /-- The count of instructions never passes the step budget (R220). -/
  budget : ∀ b ∈ s.stepBudget, s.status.steps ≤ b
  /-- `STATUS` records an error exactly in the two error outcomes (R30, R212). -/
  no_error : s.status.state = .running ∨ s.status.state = .halted ∨ s.status.state = .budgetExceeded →
    s.status.errCode = .noError ∧ s.status.errField = .noField
  /-- What `OVERFLOW` records; it needs a finite `REG_WIDTH` (R104). -/
  overflow_error : s.status.state = .overflow →
    s.status.errCode = .overflow ∧ s.status.errField = .result ∧ s.cfg.regWidth ≠ .unbounded
  /-- What `LOAD_ERROR` records: a code of class load, and no instruction executed (R212, R213). -/
  load_error : s.status.state = .loadError →
    s.status.errCode ≠ .noError ∧ s.status.errCode ≠ .overflow ∧ s.status.steps = 0
  /-- `FINAL_REGS` is the register file at the halt, and is defined in no other run state (R34, R181). -/
  final : s.finalRegs = if s.status.state = .halted then some s.regs else none
  /-- A halted machine halted because `pc` left the program (R182). -/
  halted_outside : s.status.state = .halted → s.pc < 0 ∨ (s.cfg.len : Int) ≤ s.pc
  /-- After an executed instruction the bound register holds `pc - 1` (R187, R192); the overflow fault skips the steps
  that would make it so (R216). -/
  bound_value : s.cfg.ipbValid = true → 0 < s.status.steps → s.status.state ≠ .overflow →
    s.Holds s.cfg.ipbIdx (s.pc - 1)

/-- `s` and `t` agree on all that a program can act on (R32, R33): they may differ in `STATUS.STEPS`, `STATUS.ERR_INDEX`,
`CFG.ENTRY_PC`, `CFG.NREG`, the launch count, and `CFG.IPB_IDX` where no register is bound. No step budget is set, the one
thing that reads `STEPS`. -/
structure State.ProgramAgrees (s t : State) : Prop where
  /-- The same register file. -/
  regs : t.regs = s.regs
  /-- The same program counter. -/
  pc : t.pc = s.pc
  /-- The same program. -/
  prog : t.prog = s.prog
  /-- The same program length. -/
  len : t.cfg.len = s.cfg.len
  /-- The same register width. -/
  width : t.cfg.regWidth = s.cfg.regWidth
  /-- A register is bound in both or in neither. -/
  bound : t.cfg.ipbValid = s.cfg.ipbValid
  /-- The same bound register, where one is bound. -/
  boundIdx : s.cfg.ipbValid = true → t.cfg.ipbIdx = s.cfg.ipbIdx
  /-- The same run state. -/
  state : t.status.state = s.status.state
  /-- The same final registers. -/
  final : t.finalRegs = s.finalRegs
  /-- No budget. -/
  noBudget : s.stepBudget = none ∧ t.stepBudget = none

/-- `s` after a launch that a check refuses (R213): `STATUS` and the outputs alone are changed (R219). -/
def State.refused (s : State) (code : ErrCode) (index : Int) (field : ErrField) : State :=
  { s with
    status := { state := .loadError, errCode := code, errIndex := index, errField := field, steps := 0 }
    finalRegs := none
    launches := s.launches + 1 }

/-- `s` reports the load error `code`, found at `index` in `field`, with no instruction executed (R213). -/
abbrev State.ReportsLoadError (s : State) (code : ErrCode) (index : Int) (field : ErrField) : Prop :=
  s.status = { state := .loadError, errCode := code, errIndex := index, errField := field, steps := 0 }

/-- The field `f` names a register of a file of `nreg`. -/
abbrev FieldNames (nreg : Int) (f : Int) : Prop := 0 ≤ f ∧ f < nreg

/-- R77 in words: the record `r` fails a check, and `code` and `field` are those of the first that fails, in the order
`op`, `C`, register `A`, register `B`, immediate `A`, immediate `B`. -/
def RecordFails (nreg : Int) (w : RegWidth) (r : Record) (code : ErrCode) (field : ErrField) : Prop :=
  (16 ≤ r.op.toNat ∧ code = .opcode ∧ field = .op) ∨
  ∃ i : Instr, encode i = r ∧
    ((¬ FieldNames nreg r.c ∧ code = .destRange ∧ field = .c) ∨
     (FieldNames nreg r.c ∧
       ((i.kindA = .reg ∧ ¬ FieldNames nreg r.a ∧ code = .srcRange ∧ field = .a) ∨
        ((i.kindA = .reg → FieldNames nreg r.a) ∧
          ((i.kindB = .reg ∧ ¬ FieldNames nreg r.b ∧ code = .srcRange ∧ field = .b) ∨
           ((i.kindB = .reg → FieldNames nreg r.b) ∧
             ((i.kindA = .imm ∧ inRange w r.a = false ∧ code = .immRange ∧ field = .a) ∨
              ((i.kindA = .imm → inRange w r.a = true) ∧
                i.kindB = .imm ∧ inRange w r.b = false ∧ code = .immRange ∧ field = .b))))))))

/-- The launch inputs meet every requirement on the caller (R244) for a machine of register width `w`. -/
structure LaunchInputs.Acceptable (inp : LaunchInputs) (w : RegWidth) : Prop where
  /-- `NREG >= 1`. -/
  nreg_pos : 1 ≤ inp.nreg
  /-- Exactly `NREG` initial values. -/
  init_length : (inp.init.length : Int) = inp.nreg
  /-- A valid binding. -/
  ipb : ∀ ip ∈ inp.ipb, 0 ≤ ip ∧ ip < inp.nreg
  /-- Initial values of the register width. -/
  init_fit : ∀ v ∈ inp.init, inRange w v = true
  /-- Every record is the encoding of a well-formed instruction. -/
  prog : ∀ r ∈ inp.prog, ∃ i : Instr, i.wellFormed inp.nreg.toNat w = true ∧ encode i = r

end Sys2Proof.Machine
end

