-- ==== Sys2Proof/Certificates/Slice0/Obligations.lean ====
section
/-! DEFINITION. The statements for the provers, each a proposition about the machine and no program. -/

open Sys2Proof Sys2Proof.Machine

/-! ## Decoding and encoding -/

/-- Each opcode number of R72's table decodes to its instruction, the three fields unchanged. -/
def Obligations.DecodesTheRecordsOfTheTable : Prop :=
  decode ⟨0x00#8, 4, 5, 2⟩ = .ok (.addr 4 5 2) ∧ decode ⟨0x01#8, 4, -5, 2⟩ = .ok (.addi 4 (-5) 2) ∧
  decode ⟨0x02#8, 4, 5, 2⟩ = .ok (.mulr 4 5 2) ∧ decode ⟨0x03#8, 4, -5, 2⟩ = .ok (.muli 4 (-5) 2) ∧
  decode ⟨0x04#8, 4, 5, 2⟩ = .ok (.banr 4 5 2) ∧ decode ⟨0x05#8, 4, -5, 2⟩ = .ok (.bani 4 (-5) 2) ∧
  decode ⟨0x06#8, 4, 5, 2⟩ = .ok (.borr 4 5 2) ∧ decode ⟨0x07#8, 4, -5, 2⟩ = .ok (.bori 4 (-5) 2) ∧
  decode ⟨0x08#8, 4, 999, 2⟩ = .ok (.setr 4 999 2) ∧ decode ⟨0x09#8, -42, 999, 2⟩ = .ok (.seti (-42) 999 2) ∧
  decode ⟨0x0A#8, 4, 5, 2⟩ = .ok (.gtrr 4 5 2) ∧ decode ⟨0x0B#8, 4, -5, 2⟩ = .ok (.gtri 4 (-5) 2) ∧
  decode ⟨0x0C#8, -4, 5, 2⟩ = .ok (.gtir (-4) 5 2) ∧ decode ⟨0x0D#8, 4, 5, 2⟩ = .ok (.eqrr 4 5 2) ∧
  decode ⟨0x0E#8, 4, -5, 2⟩ = .ok (.eqri 4 (-5) 2) ∧ decode ⟨0x0F#8, -4, 5, 2⟩ = .ok (.eqir (-4) 5 2) ∧
  decode ⟨0x10#8, 0, 0, 0⟩ = .error (.illegalOpcode 0x10#8)

/-- R79: every record is exactly one of the sixteen instructions, or its opcode is illegal, it is none of them, and it is
a load error for every register count and width. -/
def Obligations.DecodingIsTotalAndExclusive : Prop :=
  ∀ r : Record,
    (r.op.toNat < 16 → ∃ i, decode r = .ok i ∧ ∀ j, encode j = r ↔ j = i) ∧
    (16 ≤ r.op.toNat → decode r = .error (.illegalOpcode r.op) ∧ (∀ j, encode j ≠ r) ∧
      ∀ nreg w, recordError nreg w r = some (.opcode, .op))

/-- Decode and encode agree for every instruction, with every operand any integer; and the checks a launch makes of a
record (R77) pass exactly for the encodings of well-formed instructions. -/
def Obligations.EncodingsAreWhatTheLaunchAccepts : Prop :=
  (∀ i, decode (encode i) = .ok i) ∧
  ∀ (nreg : Nat) (w : RegWidth) (r : Record),
    recordError nreg w r = none ↔ ∃ i, i.wellFormed nreg w = true ∧ encode i = r

/-- R76: the field `B` of `setr` and `seti` is not checked and has no effect. -/
def Obligations.IgnoredOperandHasNoEffect : Prop :=
  ∀ (s : State) (nreg : Nat) (w : RegWidth) (a b b' c : Int),
    (Instr.setr a b c).wellFormed nreg w = (Instr.setr a b' c).wellFormed nreg w ∧
    (Instr.seti a b c).wellFormed nreg w = (Instr.seti a b' c).wellFormed nreg w ∧
    exec (.setr a b c) s = exec (.setr a b' c) s ∧ exec (.seti a b c) s = exec (.seti a b' c) s

/-- R81: a text line's mnemonic gives its opcode and its three integers are unchanged; the directive gives `IPB`. A tag
that is no mnemonic makes a record that every launch refuses with `E_OPCODE` (R78). -/
def Obligations.TextBecomesRecords : Prop :=
  (∀ i : Instr, recordOfLine ⟨mnemonic i, i.fieldA, i.fieldB, i.dest⟩ = encode i) ∧
  (∀ ln : TextLine, (recordOfLine ln).a = ln.a ∧ (recordOfLine ln).b = ln.b ∧ (recordOfLine ln).c = ln.c) ∧
  (∀ (ln : TextLine) (nreg : Nat) (w : RegWidth), (∀ i : Instr, mnemonic i ≠ ln.tag) →
    recordError nreg w (recordOfLine ln) = some (.opcode, .op)) ∧
  (∀ (p : TextProgram) (nreg : Int) (init : List Int) (budget : Option Nat),
    (inputsOfText p nreg init budget).ipb = p.directive ∧
    (inputsOfText p nreg init budget).prog = p.lines.map recordOfLine ∧
    (inputsOfText p nreg init budget).entryPc = 0)

/-! ## The sixteen instructions -/

/-- R105, R106: encoding, exact sum, and the overflow of a finite width. The next state is given whole, so it is the frame:
`x[c]` alone changes, or `STATUS` alone. -/
def Obligations.AddWritesTheExactSum : Prop :=
  ∀ (s : State) (a b c x : Int), s.Holds a x → s.Names c →
    encode (.addr a b c) = ⟨0x00#8, a, b, c⟩ ∧ encode (.addi a b c) = ⟨0x01#8, a, b, c⟩ ∧
    (∀ y, s.Holds b y → s.Fits (x + y) → exec (.addr a b c) s = .next (s.withReg c (x + y))) ∧
    (∀ y, s.Holds b y → ¬ s.Fits (x + y) → exec (.addr a b c) s = .next s.overflowed) ∧
    (s.Fits (x + b) → exec (.addi a b c) s = .next (s.withReg c (x + b))) ∧
    (¬ s.Fits (x + b) → exec (.addi a b c) s = .next s.overflowed)

/-- R107, R108: encoding, exact product, and the overflow of a finite width. -/
def Obligations.MultiplyWritesTheExactProduct : Prop :=
  ∀ (s : State) (a b c x : Int), s.Holds a x → s.Names c →
    encode (.mulr a b c) = ⟨0x02#8, a, b, c⟩ ∧ encode (.muli a b c) = ⟨0x03#8, a, b, c⟩ ∧
    (∀ y, s.Holds b y → s.Fits (x * y) → exec (.mulr a b c) s = .next (s.withReg c (x * y))) ∧
    (∀ y, s.Holds b y → ¬ s.Fits (x * y) → exec (.mulr a b c) s = .next s.overflowed) ∧
    (s.Fits (x * b) → exec (.muli a b c) s = .next (s.withReg c (x * b))) ∧
    (¬ s.Fits (x * b) → exec (.muli a b c) s = .next s.overflowed)

/-- The instructions of R121 and R122, with `&` by the bits of R120, which the spec takes from general knowledge (log entry
10): of operands of the width, `x[c]` gets the integer whose bits are the common bits. -/
def Obligations.AndWritesTheCommonBits : Prop :=
  ∀ (s : State) (a b c x : Int), s.cfg.regWidth.legal = true → s.Holds a x → s.Fits x → s.Names c →
    encode (.banr a b c) = ⟨0x04#8, a, b, c⟩ ∧ encode (.bani a b c) = ⟨0x05#8, a, b, c⟩ ∧
    (∀ y, s.Holds b y → s.Fits y → ∃ v, exec (.banr a b c) s = .next (s.withReg c v) ∧
      ∀ k, bitAt k v = 1 ↔ bitAt k x = 1 ∧ bitAt k y = 1) ∧
    (s.Fits b → ∃ v, exec (.bani a b c) s = .next (s.withReg c v) ∧
      ∀ k, bitAt k v = 1 ↔ bitAt k x = 1 ∧ bitAt k b = 1)

/-- The instructions of R123 and R124, with `|` by the bits of R120 (log entry 10). -/
def Obligations.OrWritesTheUnitedBits : Prop :=
  ∀ (s : State) (a b c x : Int), s.cfg.regWidth.legal = true → s.Holds a x → s.Fits x → s.Names c →
    encode (.borr a b c) = ⟨0x06#8, a, b, c⟩ ∧ encode (.bori a b c) = ⟨0x07#8, a, b, c⟩ ∧
    (∀ y, s.Holds b y → s.Fits y → ∃ v, exec (.borr a b c) s = .next (s.withReg c v) ∧
      ∀ k, bitAt k v = 1 ↔ bitAt k x = 1 ∨ bitAt k y = 1) ∧
    (s.Fits b → ∃ v, exec (.bori a b c) s = .next (s.withReg c v) ∧
      ∀ k, bitAt k v = 1 ↔ bitAt k x = 1 ∨ bitAt k b = 1)

/-- R140, R141: `setr` copies a register, `seti` loads the immediate, whatever `B` is; the launch check of `setr` never
looks at a range, that of `seti` refuses an immediate out of range of a finite width. -/
def Obligations.AssignCopiesOrLoads : Prop :=
  ∀ (s : State) (a b c : Int), s.Names c →
    encode (.setr a b c) = ⟨0x08#8, a, b, c⟩ ∧ encode (.seti a b c) = ⟨0x09#8, a, b, c⟩ ∧
    (∀ x, s.Holds a x → s.Fits x → exec (.setr a b c) s = .next (s.withReg c x)) ∧
    (s.Fits a → exec (.seti a b c) s = .next (s.withReg c a)) ∧
    (∀ x, s.Holds a x → recordError s.regs.length s.cfg.regWidth (encode (.setr a b c)) = none) ∧
    (s.Fits a → recordError s.regs.length s.cfg.regWidth (encode (.seti a b c)) = none) ∧
    (¬ s.Fits a → recordError s.regs.length s.cfg.regWidth (encode (.seti a b c)) = some (.immRange, .a))

/-- R151, R152, R153, with R150: the left operand strictly greater, as signed integers, writes 1, else 0. -/
def Obligations.GreaterThanWritesZeroOrOne : Prop :=
  ∀ (s : State) (a b c : Int), s.cfg.regWidth.legal = true → s.Names c →
    encode (.gtrr a b c) = ⟨0x0A#8, a, b, c⟩ ∧ encode (.gtri a b c) = ⟨0x0B#8, a, b, c⟩ ∧
    encode (.gtir a b c) = ⟨0x0C#8, a, b, c⟩ ∧
    (∀ x y, s.Holds a x → s.Holds b y → exec (.gtrr a b c) s = .next (s.withReg c (if y < x then 1 else 0))) ∧
    (∀ x, s.Holds a x → exec (.gtri a b c) s = .next (s.withReg c (if b < x then 1 else 0))) ∧
    (∀ y, s.Holds b y → exec (.gtir a b c) s = .next (s.withReg c (if y < a then 1 else 0)))

/-- R154, R155, R156, with R150: equal integers write 1, others 0. -/
def Obligations.EqualWritesZeroOrOne : Prop :=
  ∀ (s : State) (a b c : Int), s.cfg.regWidth.legal = true → s.Names c →
    encode (.eqrr a b c) = ⟨0x0D#8, a, b, c⟩ ∧ encode (.eqri a b c) = ⟨0x0E#8, a, b, c⟩ ∧
    encode (.eqir a b c) = ⟨0x0F#8, a, b, c⟩ ∧
    (∀ x y, s.Holds a x → s.Holds b y → exec (.eqrr a b c) s = .next (s.withReg c (if x = y then 1 else 0))) ∧
    (∀ x, s.Holds a x → exec (.eqri a b c) s = .next (s.withReg c (if x = b then 1 else 0))) ∧
    (∀ y, s.Holds b y → exec (.eqir a b c) s = .next (s.withReg c (if a = y then 1 else 0)))

/-- R120, the two's-complement reading that the spec takes from general knowledge (log entry 10): the bits of the model's `&` and `|`, that they determine the integer, and the signs. -/
def Obligations.BitwiseLawOnUnlimitedTwosComplement : Prop :=
  (∀ (k : Nat) (u v : Int), (bitAt k (intAnd u v) = 1 ↔ bitAt k u = 1 ∧ bitAt k v = 1) ∧
    (bitAt k (intOr u v) = 1 ↔ bitAt k u = 1 ∨ bitAt k v = 1)) ∧
  (∀ u v : Int, (∀ k, bitAt k u = 1 ↔ bitAt k v = 1) → u = v) ∧
  (∀ u v : Int, (intAnd u v < 0 ↔ u < 0 ∧ v < 0) ∧ (intOr u v < 0 ↔ u < 0 ∨ v < 0))

/-- R125, which the spec derives from R120 (log entry 10): bitwise results of in-range operands are in range, so that the four instructions never overflow; and the
bounds for non-negative operands. -/
def Obligations.BitwiseResultsStayInRange : Prop :=
  (∀ (w : RegWidth) (u v : Int), inRange w u = true → inRange w v = true →
    inRange w (intAnd u v) = true ∧ inRange w (intOr u v) = true) ∧
  (∀ (s t : State) (a b c : Int), s.status.state = .running → (∀ v ∈ s.regs, s.Fits v) → s.Fits b →
    exec (.banr a b c) s = .next t ∨ exec (.bani a b c) s = .next t ∨
    exec (.borr a b c) s = .next t ∨ exec (.bori a b c) s = .next t → t.status = s.status) ∧
  (∀ u v : Int, 0 ≤ u → 0 ≤ v → 0 ≤ intAnd u v ∧ intAnd u v ≤ min u v ∧
    max u v ≤ intOr u v ∧ intOr u v ≤ u + v)

/-- R100 (and R101): for each of the sixteen, once its fields name registers, there is one result that depends on the
instruction and the register file alone; every machine with that file writes it to the destination and changes nothing
else, or, where it is out of range, overflows (R104). -/
def Obligations.ExecIsAPureFunctionOfTheRegisterFile : Prop :=
  ∀ (i : Instr) (x : List Int), i.wellFormed x.length .unbounded = true →
    ∃ v : Int, ∀ s : State, s.regs = x →
      (s.Fits v → exec i s = .next (s.withReg i.dest v)) ∧ (¬ s.Fits v → exec i s = .next s.overflowed)

/-- R104: of registers and immediates of the width, only `addr`, `addi`, `mulr` and `muli` overflow, and only at a finite
width; every other instruction goes on. -/
def Obligations.OnlyAddAndMultiplyOverflow : Prop :=
  ∀ (i : Instr) (s : State), s.cfg.regWidth.legal = true → s.status.state = .running → (∀ v ∈ s.regs, s.Fits v) →
    i.wellFormed s.regs.length s.cfg.regWidth = true →
    ∃ t, exec i s = .next t ∧
      (t.status = s.status ∨
        (t = s.overflowed ∧ s.cfg.regWidth ≠ .unbounded ∧
          ∃ a b c, i = .addr a b c ∨ i = .addi a b c ∨ i = .mulr a b c ∨ i = .muli a b c))

/-- The MODEL's choice (log entry 3): an instruction one of whose fields names no register, which no launch lets into the
program store, stops with a fault of its own and no next state. -/
def Obligations.MissingRegisterFaults : Prop :=
  ∀ (i : Instr) (s : State), i.wellFormed s.regs.length .unbounded = false →
    exec i s = .fault .noSuchRegister

/-! ## The step -/

/-- A step runs the decoded instruction (R181, R184 to R187): mirror in, `exec`, count, mirror out, increment; an
instruction that ends the run ends the step. The MODEL's choice: that such a step keeps the mirror's write (third clause,
log entry 14), and that a fault of `exec`, which needs a state no launch gives, is the step's (last clause, log entry 3). -/
def Obligations.StepRunsTheDecodedInstruction : Prop :=
  ∀ (s : State) (i : Instr), s.CanRun → s.Fetches i → s.BindingOk →
    (∀ t, exec i s.mirrored = .next t → t.status.state = .running → t.cfg.ipbValid = false →
      step s = .next { t with status := { t.status with steps := t.status.steps + 1 }, pc := t.pc + 1 }) ∧
    (∀ t v, exec i s.mirrored = .next t → t.status.state = .running → t.cfg.ipbValid = true →
      t.Holds t.cfg.ipbIdx v →
      step s = .next { t with status := { t.status with steps := t.status.steps + 1 }, pc := v + 1 }) ∧
    (∀ t, exec i s.mirrored = .next t → t.status.state ≠ .running → step s = .next t) ∧
    (∀ f, exec i s.mirrored = .fault f → step s = .fault f)

/-- R182: a running machine halts exactly where `pc` is outside the program, before any fetch and whatever the budget, and
`FINAL_REGS` is the register file. -/
def Obligations.LeavingTheProgramIsTheOnlyNormalEnd : Prop :=
  ∀ s : State, s.status.state = .running →
    (s.pc < 0 ∨ (s.cfg.len : Int) ≤ s.pc →
      step s = .next { s with status := { s.status with state := .halted }, finalRegs := some s.regs }) ∧
    (0 ≤ s.pc → s.pc < (s.cfg.len : Int) → ∀ t, step s = .next t → t.status.state ≠ .halted)

/-- R220: the halt check comes first; then a used-up budget ends the run, with no register file; a budget that is not used
up changes nothing of the step. -/
def Obligations.BudgetEndsARunAndDoesNothingElse : Prop :=
  ∀ s : State, s.status.state = .running →
    (s.pc < 0 ∨ (s.cfg.len : Int) ≤ s.pc → ∃ t, step s = .next t ∧ t.status.state = .halted) ∧
    (0 ≤ s.pc → s.pc < (s.cfg.len : Int) → s.stepBudget = some s.status.steps →
      step s = .next { s with status := { s.status with state := .budgetExceeded } } ∧
      ({ s with status := { s.status with state := .budgetExceeded } } : State).finalRegsPort = none) ∧
    (s.stepBudget ≠ some s.status.steps → ∀ t, step { s with stepBudget := none } = .next t →
      step s = .next { t with stepBudget := s.stepBudget })

/-- R226: in a terminal state no number of steps changes any state. -/
def Obligations.TerminalStatesAreFinal : Prop :=
  ∀ (k : Nat) (s : State), s.status.state ≠ .running → runSteps k s = .next s

/-- The MODEL's choice (log entry 3): in a state that no launch gives, a fetch that finds no record, a record that is no
instruction and a bound index that names no register stop with faults of their own. -/
def Obligations.StatesNoLaunchGivesFault : Prop :=
  ∀ s : State, s.CanRun →
    (s.prog.length ≤ s.pc.toNat → step s = .fault .noSuchRecord) ∧
    (∀ r, s.prog[s.pc.toNat]? = some r → 16 ≤ r.op.toNat → step s = .fault .undecodable) ∧
    (∀ i, s.Fetches i → ¬ s.BindingOk → step s = .fault .noSuchRegister)

/-- R191, which the spec derives from R182, R184, R186 and R187: with `ip` bound, the value `V` an instruction leaves in `x[ip]` makes the next step check and fetch at `V + 1`;
so the next step halts exactly for `V >= L - 1` and `V <= -2`; -1 goes on at 0. An instruction that does not write
`x[ip]` leaves `V = pc`; a relative jump computes `V` from its own address. -/
def Obligations.BoundRegisterWriteIsAJump : Prop :=
  ∀ (s t : State) (i : Instr) (ip : Nat), s.CanRun → s.Fetches i → s.Binds ip →
    step s = .next t → t.status.state = .running →
    ∃ v, t.Holds ip v ∧ t.pc = v + 1 ∧ (i.dest ≠ ip → v = s.pc) ∧ (∀ k, i = .addi ip k ip → v = s.pc + k) ∧
      ((s.cfg.len : Int) - 1 ≤ v ∨ v ≤ -2 → ∃ u, step t = .next u ∧ u.status.state = .halted) ∧
      (v = -1 → t.pc = 0 ∧ ∀ u, step t = .next u → u.status.state ≠ .halted) ∧
      (-1 ≤ v → v < (s.cfg.len : Int) - 1 → t.stepBudget ≠ some t.status.steps → t.CanRun)

/-- R187, whose `x[ip] = pc - 1` the spec derives from R186: the increment leaves the bound register behind. For every executed instruction: one more step counted, and
`x[ip] = pc - 1` after it; unbound, `pc` moves to the next instruction. -/
def Obligations.IncrementLeavesTheBoundRegisterBehind : Prop :=
  ∀ s t : State, s.CanRun → step s = .next t → t.status.state = .running →
    t.status.steps = s.status.steps + 1 ∧
    (∀ ip : Nat, s.Binds ip → t.Holds ip (t.pc - 1)) ∧
    (s.cfg.ipbValid = false → t.pc = s.pc + 1)

/-- R184: a value an earlier instruction left in the bound register is lost at the next fetch, before any instruction can
read it; and an instruction that reads the bound register reads its own index. With no bound register a step writes
nothing but its instruction's destination. -/
def Obligations.InstructionReadsItsOwnAddress : Prop :=
  (∀ (s : State) (ip : Nat), s.CanRun → s.Binds ip →
    (∀ v, step (s.withReg ip v) = step s) ∧
    (∀ b k : Int, s.Fetches (.setr ip b k) → s.Fits s.pc → s.Names k → k ≠ ip →
      ∃ t, step s = .next t ∧ t.Holds k s.pc ∧ t.Holds ip s.pc ∧ t.pc = s.pc + 1)) ∧
  (∀ (s t : State) (i : Instr), s.CanRun → s.Fetches i → s.cfg.ipbValid = false → step s = .next t →
    ∀ j v, j ≠ i.dest → s.Holds j v → t.Holds j v)

/-- R82, which the spec derives from R182, R184, R191, R140 and R141: the idioms of control flow do what they are listed to do. -/
def Obligations.ControlFlowIdioms : Prop :=
  ∀ (s : State) (ip : Nat), s.CanRun → s.Binds ip →
    (∀ target b : Int, s.Fetches (.seti (target - 1) b ip) → s.Fits (target - 1) →
      ∃ t, step s = .next t ∧ t.pc = target) ∧
    (∀ k : Int, s.Fetches (.addi ip k ip) → s.Fits (s.pc + k) → ∃ t, step s = .next t ∧ t.pc = s.pc + k + 1) ∧
    (∀ j v : Int, j ≠ ip → s.Holds j v → s.Fetches (.addr j ip ip) ∨ s.Fetches (.addr ip j ip) →
      s.Fits (s.pc + v) → ∃ t, step s = .next t ∧ t.pc = s.pc + 1 + v) ∧
    (∀ j b v : Int, j ≠ ip → s.Holds j v → s.Fetches (.setr j b ip) → s.Fits v →
      ∃ t, step s = .next t ∧ t.pc = v + 1) ∧
    (∀ v b : Int, v ≤ -2 ∨ (s.cfg.len : Int) - 1 ≤ v → s.Fetches (.seti v b ip) → s.Fits v →
      ∃ t u, step s = .next t ∧ step t = .next u ∧ u.status.state = .halted) ∧
    (∀ j b k v : Int, j ≠ ip → k ≠ ip → s.Holds j v → s.Names k → s.Fits v → s.Fetches (.setr j b k) →
      ∃ t, step s = .next t ∧ t.Holds k v ∧ t.pc = s.pc + 1) ∧
    (∀ v b k : Int, k ≠ ip → s.Names k → s.Fits v → s.Fetches (.seti v b k) →
      ∃ t, step s = .next t ∧ t.Holds k v ∧ t.pc = s.pc + 1) ∧
    (∀ k b v : Int, k ≠ ip → s.Holds k v → s.Fits v → s.Fetches (.setr k b k) ∨ s.Fetches (.addi k 0 k) →
      ∃ t, step s = .next t ∧ t.regs = s.mirrored.regs ∧ t.pc = s.pc + 1) ∧
    (∀ b : Int, s.Fetches (.setr ip b ip) → s.Fits s.pc →
      ∃ t, step s = .next t ∧ t.regs = s.mirrored.regs ∧ t.pc = s.pc + 1)

/-- R216: a step whose instruction overflows writes no destination, counts no instruction and performs neither (e) nor (f):
of the state after the mirror, `STATUS` alone changes; and it returns no register file. (That the mirror's write stays is log entry 14.) -/
def Obligations.OverflowIsPreciseAndTerminal : Prop :=
  ∀ (s t : State) (i : Instr), s.CanRun → s.Fetches i → s.BindingOk →
    exec i s.mirrored = .next t → t.status.state = .overflow →
    step s = .next s.mirrored.overflowed ∧ t = s.mirrored.overflowed ∧
    t.status.steps = s.status.steps ∧ t.pc = s.pc ∧
    t.result = some (.overflow ⟨16, s.pc, .result⟩) ∧ t.finalRegsPort = none

/-- R22, R62 and the read-only configuration of R29: no step of any kind resizes the register file, writes the program
store, or changes `CFG` or the budget. -/
def Obligations.StepChangesNoProgramAndNoConfiguration : Prop :=
  ∀ s t : State, step s = .next t →
    t.regs.length = s.regs.length ∧ t.prog = s.prog ∧ t.cfg = s.cfg ∧ t.stepBudget = s.stepBudget ∧
    t.launches = s.launches

/-- R33: with no budget set, `STATUS.STEPS` and the other fields no program can read never make a difference to a run:
from two states that differ in them alone, every number of steps gives two such states again. -/
def Obligations.StepCounterIsInvisibleToPrograms : Prop :=
  ∀ (k : Nat) (s t s' : State), s.ProgramAgrees t → runSteps k s = .next s' →
    ∃ t', runSteps k t = .next t' ∧ s'.ProgramAgrees t'

/-! ## Launch and runs

A launch is stated from every state `s`. That a launch from a RUNNING machine replaces its run is the MODEL's choice (log
entry 21). -/

/-- R35: every piece of state after a launch that no check refuses. -/
def Obligations.LaunchSetsEveryPieceOfState : Prop :=
  ∀ (inp : LaunchInputs) (s : State), inp.Acceptable s.cfg.regWidth →
    (launch inp s).regs = inp.init ∧ (launch inp s).pc = inp.entryPc ∧ (launch inp s).prog = inp.prog ∧
    ((launch inp s).cfg.ipbValid = true ↔ inp.ipb ≠ none) ∧
    (∀ ip, inp.ipb = some ip → ((launch inp s).cfg.ipbIdx : Int) = ip) ∧
    ((launch inp s).cfg.nreg : Int) = inp.nreg ∧ (launch inp s).cfg.len = inp.prog.length ∧
    (launch inp s).cfg.entryPc = inp.entryPc ∧ (launch inp s).cfg.regWidth = s.cfg.regWidth ∧
    (launch inp s).status.state = .running ∧ (launch inp s).status.errCode = .noError ∧
    (launch inp s).status.errField = .noField ∧ (launch inp s).status.steps = 0 ∧
    (launch inp s).stepBudget = inp.stepBudget ∧ (launch inp s).finalRegs = none

/-- The last paragraph of R35, which the spec derives from R182 and R184: the launch value of the bound register makes no
difference to a run that fetches an instruction, and is in the result of a run that fetches none. -/
def Obligations.LaunchValueOfTheBoundRegister : Prop :=
  ∀ (inp : LaunchInputs) (s : State) (ip : Int), inp.Acceptable s.cfg.regWidth → inp.ipb = some ip →
    (launch inp s).regs[ip.toNat]? = inp.init[ip.toNat]? ∧
    (0 ≤ inp.entryPc → inp.entryPc < (inp.prog.length : Int) → inp.stepBudget ≠ some 0 →
      ∀ v, step ((launch inp s).withReg ip v) = step (launch inp s)) ∧
    (inp.entryPc < 0 ∨ (inp.prog.length : Int) ≤ inp.entryPc →
      ∃ t final, step (launch inp s) = .next t ∧ t.result = some (.halted final) ∧
        final[ip.toNat]? = inp.init[ip.toNat]?)

/-- R214 (with R213 and R77): the launch refuses with the first failing check, in the order of the codes 1, 2, 3, then the
records by ascending index, and reports it. -/
def Obligations.LaunchReportsTheFirstFailure : Prop :=
  ∀ (inp : LaunchInputs) (s : State),
    (inp.nreg < 1 ∨ (inp.init.length : Int) ≠ inp.nreg →
      (launch inp s).ReportsLoadError .regCount (-1) .nreg ∨ (launch inp s).ReportsLoadError .regCount (-1) .init) ∧
    (1 ≤ inp.nreg → (inp.init.length : Int) = inp.nreg →
      (∀ ip, inp.ipb = some ip → ¬ FieldNames inp.nreg ip →
        (launch inp s).ReportsLoadError .ipbRange (-1) .ipb) ∧
      ((∀ ip ∈ inp.ipb, FieldNames inp.nreg ip) →
        ((∃ v ∈ inp.init, ¬ s.Fits v) → (launch inp s).ReportsLoadError .initRange (-1) .init) ∧
        ((∀ v ∈ inp.init, s.Fits v) →
          ∀ good r rest code field, inp.prog = good ++ r :: rest →
            (∀ q ∈ good, ∃ i : Instr, i.wellFormed inp.nreg.toNat s.cfg.regWidth = true ∧ encode i = q) →
            RecordFails inp.nreg s.cfg.regWidth r code field →
            (launch inp s).ReportsLoadError code good.length field)))

/-- R244 and R213: a launch enters `RUNNING` exactly for the inputs the caller must provide, and else is a load error with
no instruction executed and no register file, which changes `STATUS`, the outputs and the launch count alone (log entry 7).
Of error code 1 it records a field whose cause holds (log entry 4). -/
def Obligations.LaunchRunsExactlyWhatIsAcceptable : Prop :=
  ∀ (inp : LaunchInputs) (s : State),
    ((launch inp s).status.state = .running ↔ inp.Acceptable s.cfg.regWidth) ∧
    (¬ inp.Acceptable s.cfg.regWidth →
      (launch inp s).status.state = .loadError ∧ (launch inp s).status.steps = 0 ∧
      (launch inp s).finalRegsPort = none ∧ ∃ code index field, launch inp s = s.refused code index field ∧
        (code = .regCount → (field = .nreg ∧ inp.nreg < 1) ∨ (field = .init ∧ (inp.init.length : Int) ≠ inp.nreg)))

/-- R242: an out-of-range entry halts at the first step, with the launch's register file and no instruction executed. -/
def Obligations.OutOfRangeEntryHaltsAtOnce : Prop :=
  ∀ (inp : LaunchInputs) (s : State), inp.Acceptable s.cfg.regWidth →
    inp.entryPc < 0 ∨ (inp.prog.length : Int) ≤ inp.entryPc →
    ∃ t, step (launch inp s) = .next t ∧ t.result = some (.halted inp.init) ∧ t.stepsPort = some 0

/-- R210: a run of a program that a launch accepted answers a next state at every step, and never a load error; with
`UNBOUNDED` it raises no overflow either. -/
def Obligations.RunOfAnAcceptedProgramRaisesNothing : Prop :=
  ∀ (inp : LaunchInputs) (s : State) (k : Nat), inp.Acceptable s.cfg.regWidth →
    ∃ t, runSteps k (launch inp s) = .next t ∧ t.status.state ≠ .loadError ∧
      (s.cfg.regWidth = .unbounded → t.status.state ≠ .overflow)

/-- R190, which the spec derives from R181 to R187: with no bound register a run goes straight on from the entry and ends. With `UNBOUNDED` and no budget it executes
exactly the instructions from the entry to the end, in order, and halts. -/
def Obligations.UnboundRunGoesStraightOnAndEnds : Prop :=
  ∀ (inp : LaunchInputs) (s : State), inp.Acceptable s.cfg.regWidth → inp.ipb = none →
    (∃ k t, runSteps k (launch inp s) = .next t ∧ t.status.state ≠ .running) ∧
    (s.cfg.regWidth = .unbounded → inp.stepBudget = none →
      ∀ n : Nat, (n : Int) = (if 0 ≤ inp.entryPc then max 0 ((inp.prog.length : Int) - inp.entryPc) else 0) →
        (∀ j ≤ n, ∃ t, runSteps j (launch inp s) = .next t ∧ t.status.state = .running ∧
          t.pc = inp.entryPc + j ∧ t.status.steps = j) ∧
        ∃ t, runSteps (n + 1) (launch inp s) = .next t ∧ t.status.state = .halted ∧ t.status.steps = n)

/-- R192, which the spec derives from R182, R186, R187 and R35: in the final registers of a halted run the bound register holds `pc_final - 1` after an executed instruction, and
its launch value where none was executed. -/
def Obligations.FinalValueOfTheBoundRegister : Prop :=
  ∀ (inp : LaunchInputs) (s t : State) (ip : Int) (k : Nat), inp.Acceptable s.cfg.regWidth → inp.ipb = some ip →
    runSteps k (launch inp s) = .next t → t.status.state = .halted →
    ∃ final, t.result = some (.halted final) ∧
      (t.pc < 0 ∨ (inp.prog.length : Int) ≤ t.pc) ∧
      (0 < t.status.steps → final[ip.toNat]? = some (t.pc - 1)) ∧
      (t.status.steps = 0 → final[ip.toNat]? = inp.init[ip.toNat]?)

/-- R196: re-running the same program from the same initial register file gives the same result, whatever the machine did
before. -/
def Obligations.ReRunningGivesTheSameResult : Prop :=
  ∀ (inp : LaunchInputs) (s s' t : State) (k : Nat), s.cfg.regWidth = s'.cfg.regWidth →
    runSteps k (launch inp s) = .next t →
    ∃ t', runSteps k (launch inp s') = .next t' ∧ t'.result = t.result ∧ t'.stepsPort = t.stepsPort

/-- R34 and R197: every output of the block and the result, in each run state: none while the machine runs; then `OUTCOME`
and `STEPS` in every terminal state, `FINAL_REGS` for `HALTED` alone (the register file, under the invariant), and `ERR`,
with the code numbers of R212, for the two error outcomes alone. -/
def Obligations.HostSeesOnlyTheResult : Prop :=
  ∀ s : State,
    (s.status.state = .running →
      s.outcomePort = none ∧ s.stepsPort = none ∧ s.finalRegsPort = none ∧ s.errPort = none ∧ s.result = none) ∧
    (s.status.state ≠ .running → s.outcomePort = some s.status.state ∧ s.stepsPort = some s.status.steps) ∧
    (s.status.state = .halted →
      s.finalRegsPort = s.finalRegs ∧ (s.Inv → s.finalRegsPort = some s.regs) ∧ s.errPort = none ∧
      s.result = s.finalRegs.map .halted) ∧
    (s.status.state = .budgetExceeded →
      s.finalRegsPort = none ∧ s.errPort = none ∧ s.result = some .budgetExceeded) ∧
    (s.status.state = .loadError →
      s.finalRegsPort = none ∧
      s.errPort = some ⟨s.status.errCode.number, s.status.errIndex, s.status.errField⟩ ∧
      s.result = some (.loadError ⟨s.status.errCode.number, s.status.errIndex, s.status.errField⟩)) ∧
    (s.status.state = .overflow →
      s.finalRegsPort = none ∧
      s.errPort = some ⟨s.status.errCode.number, s.status.errIndex, s.status.errField⟩ ∧
      s.result = some (.overflow ⟨s.status.errCode.number, s.status.errIndex, s.status.errField⟩)) ∧
    [ErrCode.noError, .regCount, .ipbRange, .initRange, .opcode, .destRange, .srcRange, .immRange, .overflow].map
      ErrCode.number = [0, 1, 2, 3, 4, 5, 6, 7, 16]

/-! ## The invariant -/

/-- Every step keeps the invariant. -/
def Obligations.StepKeepsTheInvariant : Prop :=
  ∀ s t : State, s.Inv → step s = .next t → t.Inv

/-- The invariant holds at the model's reset state (its register count and values are the MODEL's choice, log entry 1). -/
def Obligations.ResetMeetsTheInvariant : Prop := State.reset.Inv

/-- A launch, accepted or refused, keeps the invariant. -/
def Obligations.LaunchKeepsTheInvariant : Prop :=
  ∀ (inp : LaunchInputs) (s : State), s.Inv →
    (∀ k < inp.prog.length, inRange s.cfg.regWidth (k : Int) = true) → (launch inp s).Inv

/-- Under the invariant every step answers a next state: no fault, no refusal. -/
def Obligations.InvariantExcludesFaults : Prop :=
  ∀ s : State, s.Inv → ∃ t, step s = .next t

/-- The MODEL's reset state (log entry 1) is the state after a launch of the empty program with six registers of 0, but for
the two fields the spec leaves unspecified there. -/
def Obligations.ResetIsALaunchOfTheEmptyProgram : Prop :=
  ∀ s : State, s.cfg.regWidth = .unbounded →
    ∃ (idx : Nat) (index : Int),
      { State.reset with
        cfg := { State.reset.cfg with ipbIdx := idx }
        status := { State.reset.status with errIndex := index }
        launches := s.launches + 1 } =
      launch { prog := [], ipb := none, nreg := 6, init := [0, 0, 0, 0, 0, 0] } s
end

