-- ==== Sys2Proof/Laws/Bits.lean ====
section
/-! SUPPORT. The model's bitwise operations are the library's. -/

namespace Sys2Proof.Machine

theorem testBit_natAndNot (m n k : Nat) : (natAndNot m n).testBit k = (m.testBit k && !n.testBit k) := by
  simp only [natAndNot, Nat.testBit_xor, Nat.testBit_and]
  cases m.testBit k <;> cases n.testBit k <;> rfl

theorem natAndNot_eq_ldiff (m n : Nat) : natAndNot m n = m.ldiff n :=
  Nat.eq_of_testBit_eq fun k => by rw [testBit_natAndNot, Nat.testBit_ldiff]

theorem intAnd_eq_land (u v : Int) : intAnd u v = Int.land u v := by
  cases u <;> cases v <;> simp [intAnd, Int.land, natAndNot_eq_ldiff]

theorem intOr_eq_lor (u v : Int) : intOr u v = Int.lor u v := by
  cases u <;> cases v <;> simp [intOr, Int.lor, natAndNot_eq_ldiff]

end Sys2Proof.Machine
end

