-- ==== Sys2Proof/Laws/State.lean ====
section
/-! SUPPORT. One lemma per field of State per update, each true by rfl. -/

namespace Sys2Proof.Machine

@[simp] theorem State.setPc_regs (s : State) (v : Int) : (s.setPc v).regs = s.regs := rfl
@[simp] theorem State.setPc_pc (s : State) (v : Int) : (s.setPc v).pc = v := rfl
@[simp] theorem State.setPc_prog (s : State) (v : Int) : (s.setPc v).prog = s.prog := rfl
@[simp] theorem State.setPc_cfg (s : State) (v : Int) : (s.setPc v).cfg = s.cfg := rfl
@[simp] theorem State.setPc_status (s : State) (v : Int) : (s.setPc v).status = s.status := rfl
@[simp] theorem State.setPc_stepBudget (s : State) (v : Int) : (s.setPc v).stepBudget = s.stepBudget := rfl
@[simp] theorem State.setPc_finalRegs (s : State) (v : Int) : (s.setPc v).finalRegs = s.finalRegs := rfl
@[simp] theorem State.setPc_launches (s : State) (v : Int) : (s.setPc v).launches = s.launches := rfl

@[simp] theorem State.countStep_regs (s : State) : (s.countStep).regs = s.regs := rfl
@[simp] theorem State.countStep_pc (s : State) : (s.countStep).pc = s.pc := rfl
@[simp] theorem State.countStep_prog (s : State) : (s.countStep).prog = s.prog := rfl
@[simp] theorem State.countStep_cfg (s : State) : (s.countStep).cfg = s.cfg := rfl
@[simp] theorem State.countStep_status (s : State) : (s.countStep).status = { s.status with steps := s.status.steps + 1 } := rfl
@[simp] theorem State.countStep_stepBudget (s : State) : (s.countStep).stepBudget = s.stepBudget := rfl
@[simp] theorem State.countStep_finalRegs (s : State) : (s.countStep).finalRegs = s.finalRegs := rfl
@[simp] theorem State.countStep_launches (s : State) : (s.countStep).launches = s.launches := rfl

@[simp] theorem State.halt_regs (s : State) : (s.halt).regs = s.regs := rfl
@[simp] theorem State.halt_pc (s : State) : (s.halt).pc = s.pc := rfl
@[simp] theorem State.halt_prog (s : State) : (s.halt).prog = s.prog := rfl
@[simp] theorem State.halt_cfg (s : State) : (s.halt).cfg = s.cfg := rfl
@[simp] theorem State.halt_status (s : State) : (s.halt).status = { s.status with state := .halted } := rfl
@[simp] theorem State.halt_stepBudget (s : State) : (s.halt).stepBudget = s.stepBudget := rfl
@[simp] theorem State.halt_finalRegs (s : State) : (s.halt).finalRegs = some s.regs := rfl
@[simp] theorem State.halt_launches (s : State) : (s.halt).launches = s.launches := rfl

@[simp] theorem State.exhaustBudget_regs (s : State) : (s.exhaustBudget).regs = s.regs := rfl
@[simp] theorem State.exhaustBudget_pc (s : State) : (s.exhaustBudget).pc = s.pc := rfl
@[simp] theorem State.exhaustBudget_prog (s : State) : (s.exhaustBudget).prog = s.prog := rfl
@[simp] theorem State.exhaustBudget_cfg (s : State) : (s.exhaustBudget).cfg = s.cfg := rfl
@[simp] theorem State.exhaustBudget_status (s : State) : (s.exhaustBudget).status = { s.status with state := .budgetExceeded } := rfl
@[simp] theorem State.exhaustBudget_stepBudget (s : State) : (s.exhaustBudget).stepBudget = s.stepBudget := rfl
@[simp] theorem State.exhaustBudget_finalRegs (s : State) : (s.exhaustBudget).finalRegs = s.finalRegs := rfl
@[simp] theorem State.exhaustBudget_launches (s : State) : (s.exhaustBudget).launches = s.launches := rfl

@[simp] theorem State.raiseError_regs (s : State) (st : RunState) (e : ErrCode) (k : Int) (f : ErrField) : (s.raiseError st e k f).regs = s.regs := rfl
@[simp] theorem State.raiseError_pc (s : State) (st : RunState) (e : ErrCode) (k : Int) (f : ErrField) : (s.raiseError st e k f).pc = s.pc := rfl
@[simp] theorem State.raiseError_prog (s : State) (st : RunState) (e : ErrCode) (k : Int) (f : ErrField) : (s.raiseError st e k f).prog = s.prog := rfl
@[simp] theorem State.raiseError_cfg (s : State) (st : RunState) (e : ErrCode) (k : Int) (f : ErrField) : (s.raiseError st e k f).cfg = s.cfg := rfl
@[simp] theorem State.raiseError_status (s : State) (st : RunState) (e : ErrCode) (k : Int) (f : ErrField) : (s.raiseError st e k f).status = { s.status with state := st, errCode := e, errIndex := k, errField := f } := rfl
@[simp] theorem State.raiseError_stepBudget (s : State) (st : RunState) (e : ErrCode) (k : Int) (f : ErrField) : (s.raiseError st e k f).stepBudget = s.stepBudget := rfl
@[simp] theorem State.raiseError_finalRegs (s : State) (st : RunState) (e : ErrCode) (k : Int) (f : ErrField) : (s.raiseError st e k f).finalRegs = s.finalRegs := rfl
@[simp] theorem State.raiseError_launches (s : State) (st : RunState) (e : ErrCode) (k : Int) (f : ErrField) : (s.raiseError st e k f).launches = s.launches := rfl

@[simp] theorem State.overflow_regs (s : State) : (s.overflow).regs = s.regs := rfl
@[simp] theorem State.overflow_pc (s : State) : (s.overflow).pc = s.pc := rfl
@[simp] theorem State.overflow_prog (s : State) : (s.overflow).prog = s.prog := rfl
@[simp] theorem State.overflow_cfg (s : State) : (s.overflow).cfg = s.cfg := rfl
@[simp] theorem State.overflow_status (s : State) : (s.overflow).status = { s.status with state := .overflow, errCode := .overflow, errIndex := s.pc, errField := .result } := rfl
@[simp] theorem State.overflow_stepBudget (s : State) : (s.overflow).stepBudget = s.stepBudget := rfl
@[simp] theorem State.overflow_finalRegs (s : State) : (s.overflow).finalRegs = s.finalRegs := rfl
@[simp] theorem State.overflow_launches (s : State) : (s.overflow).launches = s.launches := rfl

@[simp] theorem refuseLaunch_regs (e : ErrCode) (k : Int) (f : ErrField) (s : State) :
    (refuseLaunch e k f s).regs = s.regs := rfl
@[simp] theorem refuseLaunch_pc (e : ErrCode) (k : Int) (f : ErrField) (s : State) :
    (refuseLaunch e k f s).pc = s.pc := rfl
@[simp] theorem refuseLaunch_prog (e : ErrCode) (k : Int) (f : ErrField) (s : State) :
    (refuseLaunch e k f s).prog = s.prog := rfl
@[simp] theorem refuseLaunch_cfg (e : ErrCode) (k : Int) (f : ErrField) (s : State) :
    (refuseLaunch e k f s).cfg = s.cfg := rfl
@[simp] theorem refuseLaunch_status (e : ErrCode) (k : Int) (f : ErrField) (s : State) :
    (refuseLaunch e k f s).status = { s.status with state := .loadError, errCode := e, errIndex := k, errField := f, steps := 0 } := rfl
@[simp] theorem refuseLaunch_stepBudget (e : ErrCode) (k : Int) (f : ErrField) (s : State) :
    (refuseLaunch e k f s).stepBudget = s.stepBudget := rfl
@[simp] theorem refuseLaunch_finalRegs (e : ErrCode) (k : Int) (f : ErrField) (s : State) :
    (refuseLaunch e k f s).finalRegs = none := rfl
@[simp] theorem refuseLaunch_launches (e : ErrCode) (k : Int) (f : ErrField) (s : State) :
    (refuseLaunch e k f s).launches = s.launches + 1 := rfl

@[simp] theorem acceptLaunch_regs (inp : LaunchInputs) (s : State) : (acceptLaunch inp s).regs = inp.init := rfl
@[simp] theorem acceptLaunch_pc (inp : LaunchInputs) (s : State) : (acceptLaunch inp s).pc = inp.entryPc := rfl
@[simp] theorem acceptLaunch_prog (inp : LaunchInputs) (s : State) : (acceptLaunch inp s).prog = inp.prog := rfl
@[simp] theorem acceptLaunch_stepBudget (inp : LaunchInputs) (s : State) : (acceptLaunch inp s).stepBudget = inp.stepBudget := rfl
@[simp] theorem acceptLaunch_finalRegs (inp : LaunchInputs) (s : State) : (acceptLaunch inp s).finalRegs = none := rfl
@[simp] theorem acceptLaunch_launches (inp : LaunchInputs) (s : State) : (acceptLaunch inp s).launches = s.launches + 1 := rfl
@[simp] theorem acceptLaunch_ipbValid (inp : LaunchInputs) (s : State) : (acceptLaunch inp s).cfg.ipbValid = inp.ipb.isSome := rfl
@[simp] theorem acceptLaunch_nreg (inp : LaunchInputs) (s : State) : (acceptLaunch inp s).cfg.nreg = inp.nreg.toNat := rfl
@[simp] theorem acceptLaunch_len (inp : LaunchInputs) (s : State) : (acceptLaunch inp s).cfg.len = inp.prog.length := rfl
@[simp] theorem acceptLaunch_entryPc (inp : LaunchInputs) (s : State) : (acceptLaunch inp s).cfg.entryPc = inp.entryPc := rfl
@[simp] theorem acceptLaunch_regWidth (inp : LaunchInputs) (s : State) : (acceptLaunch inp s).cfg.regWidth = s.cfg.regWidth := rfl
@[simp] theorem acceptLaunch_state (inp : LaunchInputs) (s : State) : (acceptLaunch inp s).status.state = .running := rfl
@[simp] theorem acceptLaunch_errCode (inp : LaunchInputs) (s : State) : (acceptLaunch inp s).status.errCode = .noError := rfl
@[simp] theorem acceptLaunch_errField (inp : LaunchInputs) (s : State) : (acceptLaunch inp s).status.errField = .noField := rfl
@[simp] theorem acceptLaunch_steps (inp : LaunchInputs) (s : State) : (acceptLaunch inp s).status.steps = 0 := rfl

end Sys2Proof.Machine
end

