-- ==== Sys2Proof/Laws/Registers.lean ====
section
/-! SUPPORT. What a register read and a register write can do, said once. -/

namespace Sys2Proof.Machine

theorem inFile_iff {n : Nat} {f : Int} : inFile n f = true ↔ 0 ≤ f ∧ f < (n : Int) := by
  simp [inFile]

theorem readReg_eq_some_iff {s : State} {i v : Int} :
    s.readReg i = some v ↔ 0 ≤ i ∧ s.regs[i.toNat]? = some v := by
  unfold State.readReg; split <;> simp_all

/-- A read answers none exactly where no register has the index. -/
theorem readReg_eq_none_iff {s : State} {i : Int} : s.readReg i = none ↔ s.hasReg i = false := by
  unfold State.readReg State.hasReg inFile
  split <;> simp <;> omega

/-- All that a register write can do: the register exists, and its value alone is replaced. -/
theorem writeReg_eq_some_iff {s t : State} {i v : Int} :
    s.writeReg i v = some t ↔ s.hasReg i = true ∧ t = { s with regs := s.regs.set i.toNat v } := by
  unfold State.writeReg
  cases s.hasReg i <;> simp
  exact eq_comm

theorem writeReg_eq_none_iff {s : State} {i v : Int} : s.writeReg i v = none ↔ s.hasReg i = false := by
  unfold State.writeReg; split <;> simp_all

theorem readReg_after_writeReg {s t : State} {i v : Int} (h : s.writeReg i v = some t) :
    t.readReg i = some v := by
  obtain ⟨hi, rfl⟩ := writeReg_eq_some_iff.mp h
  obtain ⟨h0, h1⟩ := inFile_iff.mp hi
  refine readReg_eq_some_iff.mpr ⟨h0, ?_⟩
  have : i.toNat < s.regs.length := by omega
  simp [this]

theorem readReg_after_writeReg_ne {s t : State} {i j v : Int} (h : s.writeReg i v = some t) (hj : j ≠ i) :
    t.readReg j = s.readReg j := by
  obtain ⟨hi, rfl⟩ := writeReg_eq_some_iff.mp h
  obtain ⟨h0, -⟩ := inFile_iff.mp hi
  unfold State.readReg
  split
  · rw [List.getElem?_set_ne]; omega
  · rfl

/-- A write neither adds nor removes a register (R22). -/
theorem writeReg_length {s t : State} {i v : Int} (h : s.writeReg i v = some t) :
    t.regs.length = s.regs.length := by
  obtain ⟨-, rfl⟩ := writeReg_eq_some_iff.mp h
  simp

end Sys2Proof.Machine
end

