-- ==== Sys2Proof/Laws/Exec.lean ====
section
/-! SUPPORT. What the shared shape of the instructions can do, said once. -/

namespace Sys2Proof.Machine

/-- All that the write of a result can do. -/
theorem writeResult_of_hasReg {s : State} {c v : Int} (h : s.hasReg c = true) :
    writeResult s c v = .next (if inRange s.cfg.regWidth v = true then
      { s with regs := s.regs.set c.toNat v } else s.overflow) := by
  unfold writeResult State.writeReg
  rw [if_pos h]; dsimp only; split <;> rfl

theorem writeResult_of_no_reg {s : State} {c v : Int} (h : s.hasReg c = false) :
    writeResult s c v = .fault .noSuchRegister := by
  simp [writeResult, State.writeReg, h]

theorem writeResult_next {s t : State} {c v : Int} (h : writeResult s c v = .next t) :
    s.hasReg c = true ∧ ((inRange s.cfg.regWidth v = true ∧ t = { s with regs := s.regs.set c.toNat v }) ∨
      (inRange s.cfg.regWidth v = false ∧ t = s.overflow)) := by
  cases hc : s.hasReg c with
  | false => rw [writeResult_of_no_reg hc] at h; cases h
  | true =>
    rw [writeResult_of_hasReg hc] at h
    cases hv : inRange s.cfg.regWidth v <;> simp [hv] at h <;> simp [h]

theorem exec1_of_opval {f : Int → Int} {a : Operand} {c u : Int} {s : State} (h : opval s a = some u) :
    exec1 f a c s = writeResult s c (f u) := by
  simp [exec1, h]

theorem exec2_of_opval {f : Int → Int → Int} {a b : Operand} {c u v : Int} {s : State}
    (ha : opval s a = some u) (hb : opval s b = some v) :
    exec2 f a b c s = writeResult s c (f u v) := by
  simp [exec2, ha, hb]

/-- A one-operand instruction that answers a next state read its operand and wrote its result. -/
theorem exec1_next {f : Int → Int} {a : Operand} {c : Int} {s t : State} (h : exec1 f a c s = .next t) :
    ∃ u, opval s a = some u ∧ writeResult s c (f u) = .next t := by
  unfold exec1 at h; split at h
  · exact ⟨_, ‹_›, h⟩
  · cases h

/-- A two-operand instruction that answers a next state read both operands and wrote its result. -/
theorem exec2_next {f : Int → Int → Int} {a b : Operand} {c : Int} {s t : State}
    (h : exec2 f a b c s = .next t) :
    ∃ u v, opval s a = some u ∧ opval s b = some v ∧ writeResult s c (f u v) = .next t := by
  unfold exec2 at h; split at h
  · exact ⟨_, _, ‹_›, ‹_›, h⟩
  · cases h

end Sys2Proof.Machine
end

