-- ==== Sys2Proof/Laws/Engine.lean ====
section
/-! SUPPORT. What one step can do, said once. -/

namespace Sys2Proof.Machine

/-- All that step (c) can do. -/
theorem mirrorIn_eq_some_iff {s m : State} :
    mirrorIn s = some m ↔
      (s.cfg.ipbValid = false ∧ m = s) ∨
      (s.cfg.ipbValid = true ∧ s.writeReg s.cfg.ipbIdx s.pc = some m) := by
  unfold mirrorIn State.boundReg
  cases s.cfg.ipbValid <;> simp [eq_comm]

/-- All that step (e) can do. -/
theorem mirrorOut_eq_some_iff {s t : State} :
    mirrorOut s = some t ↔
      (s.cfg.ipbValid = false ∧ t = s) ∨
      (s.cfg.ipbValid = true ∧ ∃ v, s.readReg s.cfg.ipbIdx = some v ∧ t = s.setPc v) := by
  unfold mirrorOut State.boundReg
  cases s.cfg.ipbValid
  · simp [eq_comm]
  · cases h : s.readReg s.cfg.ipbIdx <;> simp [h, eq_comm]

/-- All that the end of a step can do: count, take `pc` from the mirror, increment. -/
theorem finishStep_next {s t : State} (h : finishStep s = .next t) :
    ∃ u, mirrorOut s.countStep = some u ∧ t = u.setPc (u.pc + 1) := by
  unfold finishStep at h; split at h
  · cases h
  · exact ⟨_, ‹_›, by cases h; rfl⟩

/-- All that the execution of an instruction in a step can do. -/
theorem runInstr_next {i : Instr} {s t : State} (h : runInstr i s = .next t) :
    ∃ m u, mirrorIn s = some m ∧ exec i m = .next u ∧
      ((u.status.state = .running ∧ finishStep u = .next t) ∨ (u.status.state ≠ .running ∧ t = u)) := by
  unfold runInstr at h; split at h
  · cases h
  · rename_i m hm
    split at h
    · rename_i u hu
      refine ⟨m, u, hm, hu, ?_⟩
      split at h
      · exact .inl ⟨‹_›, h⟩
      · exact .inr ⟨‹_›, by cases h; rfl⟩
    · cases h
    · cases h

/-- All that a step can do, when it answers a next state. -/
theorem step_cases {s t : State} (h : step s = .next t) :
    (s.status.state ≠ .running ∧ t = s) ∨
    (s.status.state = .running ∧ s.pcOutside = true ∧ t = s.halt) ∨
    (s.status.state = .running ∧ s.pcOutside = false ∧ s.stepBudget = some s.status.steps ∧
      t = s.exhaustBudget) ∨
    (s.status.state = .running ∧ s.pcOutside = false ∧ s.stepBudget ≠ some s.status.steps ∧
      ∃ r i, s.fetch = some r ∧ decode r = .ok i ∧ runInstr i s = .next t) := by
  unfold step engineStep at h
  split at h
  · rename_i hs
    refine .inr ?_
    unfold runningStep at h
    split at h
    · exact .inl ⟨hs, ‹_›, by cases h; rfl⟩
    · rename_i hp
      have hp : s.pcOutside = false := by simpa using hp
      split at h
      · exact .inr (.inl ⟨hs, hp, ‹_›, by cases h; rfl⟩)
      · refine .inr (.inr ⟨hs, hp, ‹_›, ?_⟩)
        unfold fetchAndRun at h
        split at h
        · cases h
        · split at h
          · cases h
          · exact ⟨_, _, ‹_›, ‹_›, h⟩
  all_goals
    rename_i hs
    exact .inl ⟨by simp [hs], by cases h; rfl⟩

end Sys2Proof.Machine
end

