-- ==== Sys2Proof/Laws/Launch.lean ====
section
/-! SUPPORT. What a launch can do, said once; the launch, the one operation that writes the program store, keeps the
store well-formed. -/

namespace Sys2Proof.Machine

/-- All that a launch can do. -/
theorem launch_cases (inp : LaunchInputs) (s : State) :
    (launchError s.cfg.regWidth inp = none ∧
      launch inp s = acceptLaunch inp s) ∨
    (∃ code index field,
      launchError s.cfg.regWidth inp = some (code, index, field) ∧
      launch inp s = refuseLaunch code index field s) := by
  unfold launch
  split
  · exact .inr ⟨_, _, _, ‹_›, rfl⟩
  · exact .inl ⟨‹_›, rfl⟩

/-- A program that passes the launch's check has no record that fails one. -/
theorem recordError_none_of_programError_none {nreg : Nat} {w : RegWidth} :
    ∀ {k : Nat} {prog : List Record}, programError nreg w k prog = none →
      ∀ r ∈ prog, recordError nreg w r = none
  | _, [], _ => by simp
  | k, r :: rest, h => by
    unfold programError at h
    split at h
    · cases h
    · intro q hq
      rcases List.mem_cons.mp hq with rfl | hq
      · assumption
      · exact recordError_none_of_programError_none h q hq

/-- The checks a launch has passed when none fails. -/
theorem launchError_none {w : RegWidth} {inp : LaunchInputs} (h : launchError w inp = none) :
    1 ≤ inp.nreg ∧ (inp.init.length : Int) = inp.nreg ∧ ipbBad inp = false ∧
      inp.init.all (inRange w) = true ∧ programError inp.nreg.toNat w 0 inp.prog = none := by
  unfold launchError at h
  split at h
  · cases h
  · rename_i hc
    unfold regCountError at hc
    split_ifs at hc
    split_ifs at h
    simp_all

theorem launch_keeps_storeWf (inp : LaunchInputs) {s : State} (h : s.storeWf = true) :
    (launch inp s).storeWf = true := by
  rcases launch_cases inp s with ⟨he, hl⟩ | ⟨code, index, field, -, hl⟩
  · rw [hl]
    have := recordError_none_of_programError_none (launchError_none he).2.2.2.2
    simpa [State.storeWf] using this
  · rw [hl]; exact h

theorem reset_storeWf : State.reset.storeWf = true := by decide

end Sys2Proof.Machine
end

