-- ==== Sys2Proof/Laws/PerInstr.lean ====
section
/-! SUPPORT. A fact about each instruction as syntax: its opcode number is one of the sixteen, its record carries its
fields, and the text form's table gives its mnemonic that number. -/

namespace Sys2Proof.Laws

/-- See the file's heading. -/
def EncodedFields.Statement (i : Instr) : Prop :=
  (opcode i).toNat < 16 ∧ (encode i).op = opcode i ∧
    ((encode i).a, (encode i).b, (encode i).c) = i.fields ∧ (mnemonic i, opcode i) ∈ mnemonicTable

theorem EncodedFields.addr (a b c : Int) : EncodedFields.Statement (.addr a b c) :=
  ⟨by simp [opcode], rfl, rfl, by simp [mnemonic, opcode, mnemonicTable]⟩

theorem EncodedFields.addi (a b c : Int) : EncodedFields.Statement (.addi a b c) :=
  ⟨by simp [opcode], rfl, rfl, by simp [mnemonic, opcode, mnemonicTable]⟩

theorem EncodedFields.mulr (a b c : Int) : EncodedFields.Statement (.mulr a b c) :=
  ⟨by simp [opcode], rfl, rfl, by simp [mnemonic, opcode, mnemonicTable]⟩

theorem EncodedFields.muli (a b c : Int) : EncodedFields.Statement (.muli a b c) :=
  ⟨by simp [opcode], rfl, rfl, by simp [mnemonic, opcode, mnemonicTable]⟩

theorem EncodedFields.banr (a b c : Int) : EncodedFields.Statement (.banr a b c) :=
  ⟨by simp [opcode], rfl, rfl, by simp [mnemonic, opcode, mnemonicTable]⟩

theorem EncodedFields.bani (a b c : Int) : EncodedFields.Statement (.bani a b c) :=
  ⟨by simp [opcode], rfl, rfl, by simp [mnemonic, opcode, mnemonicTable]⟩

theorem EncodedFields.borr (a b c : Int) : EncodedFields.Statement (.borr a b c) :=
  ⟨by simp [opcode], rfl, rfl, by simp [mnemonic, opcode, mnemonicTable]⟩

theorem EncodedFields.bori (a b c : Int) : EncodedFields.Statement (.bori a b c) :=
  ⟨by simp [opcode], rfl, rfl, by simp [mnemonic, opcode, mnemonicTable]⟩

theorem EncodedFields.setr (a b c : Int) : EncodedFields.Statement (.setr a b c) :=
  ⟨by simp [opcode], rfl, rfl, by simp [mnemonic, opcode, mnemonicTable]⟩

theorem EncodedFields.seti (a b c : Int) : EncodedFields.Statement (.seti a b c) :=
  ⟨by simp [opcode], rfl, rfl, by simp [mnemonic, opcode, mnemonicTable]⟩

theorem EncodedFields.gtrr (a b c : Int) : EncodedFields.Statement (.gtrr a b c) :=
  ⟨by simp [opcode], rfl, rfl, by simp [mnemonic, opcode, mnemonicTable]⟩

theorem EncodedFields.gtri (a b c : Int) : EncodedFields.Statement (.gtri a b c) :=
  ⟨by simp [opcode], rfl, rfl, by simp [mnemonic, opcode, mnemonicTable]⟩

theorem EncodedFields.gtir (a b c : Int) : EncodedFields.Statement (.gtir a b c) :=
  ⟨by simp [opcode], rfl, rfl, by simp [mnemonic, opcode, mnemonicTable]⟩

theorem EncodedFields.eqrr (a b c : Int) : EncodedFields.Statement (.eqrr a b c) :=
  ⟨by simp [opcode], rfl, rfl, by simp [mnemonic, opcode, mnemonicTable]⟩

theorem EncodedFields.eqri (a b c : Int) : EncodedFields.Statement (.eqri a b c) :=
  ⟨by simp [opcode], rfl, rfl, by simp [mnemonic, opcode, mnemonicTable]⟩

theorem EncodedFields.eqir (a b c : Int) : EncodedFields.Statement (.eqir a b c) :=
  ⟨by simp [opcode], rfl, rfl, by simp [mnemonic, opcode, mnemonicTable]⟩

end Sys2Proof.Laws
end

