-- ==== Sys2Proof/Laws/Ports.lean ====
section
/-! SUPPORT. When each output of the block is defined, said once. -/

namespace Sys2Proof.Machine

theorem outcomePort_eq_some_iff {s : State} {o : RunState} :
    s.outcomePort = some o ↔ s.status.state ≠ .running ∧ s.status.state = o := by
  unfold State.outcomePort
  cases s.status.state <;> simp

theorem stepsPort_eq_some_iff {s : State} {n : Nat} :
    s.stepsPort = some n ↔ s.status.state ≠ .running ∧ s.status.steps = n := by
  unfold State.stepsPort
  cases s.status.state <;> simp

theorem finalRegsPort_eq_some_iff {s : State} {x : List Int} :
    s.finalRegsPort = some x ↔ s.status.state = .halted ∧ s.finalRegs = some x := by
  unfold State.finalRegsPort
  cases s.status.state <;> simp

theorem errPort_eq_some_iff {s : State} {e : ErrPort} :
    s.errPort = some e ↔
      (s.status.state = .loadError ∨ s.status.state = .overflow) ∧
        e = ⟨s.status.errCode.number, s.status.errIndex, s.status.errField⟩ := by
  unfold State.errPort
  cases s.status.state <;> simp [eq_comm]

end Sys2Proof.Machine
end

