-- ==== Sys2Proof/Laws/Run.lean ====
section
/-! SUPPORT. Runs of several steps. -/

namespace Sys2Proof.Machine

/-- One more step of the host's run, for any machine. -/
theorem core_run_succ (M : Host.Core) (k : Nat) (s : M.State) :
    M.run (k + 1) s = match M.step s with
      | .next t => M.run k t
      | .fault f => .fault f
      | .refused r => .refused r := by
  cases h : M.step s <;> simp [Host.Core.run, h]

/-- A run is the host's own. -/
theorem runSteps_eq_core_run (k : Nat) (s : State) : runSteps k s = Host.Core.run Sys2Proof.core k s := by
  induction k generalizing s with
  | zero => rfl
  | succ k ih =>
    refine Eq.trans ?_ (core_run_succ Sys2Proof.core k s).symm
    have e : Sys2Proof.core.step s = step s := rfl
    rw [e, runSteps]
    cases step s with
    | next t => exact ih t
    | fault f => rfl
    | refused r => rfl

/-- A run of `j + k` steps is a run of `j` and then a run of `k`. -/
theorem runSteps_add (j k : Nat) (s : State) :
    runSteps (j + k) s = match runSteps j s with
      | .next t => runSteps k t
      | .fault f => .fault f
      | .refused r => .refused r := by
  induction j generalizing s with
  | zero => simp [runSteps]
  | succ j ih =>
    rw [Nat.add_right_comm, runSteps, runSteps]
    cases step s with
    | next t => exact ih t
    | fault f => rfl
    | refused r => rfl

end Sys2Proof.Machine
end

