-- ==== Sys2Proof/Tests/Slice0.lean ====
section
/-! SUPPORT. The model's own tests. Expected values come from the spec: the tables of spec/95_test_vectors.md (cited by
their row names) and the opcode table of R72. A theorem witness_… shows a state and operands that meet the hypotheses of
the statement it names, clause by clause. -/

namespace Sys2Proof.Tests

open Sys2Proof Sys2Proof.Machine

/-! ## Helpers -/

/-- A machine of a given register file, width and program, running at `pc`. -/
def machineAt (x : List Int) (pc : Int) (prog : List Record) (ip : Option Nat) (w : RegWidth) : State :=
  { State.reset with
    regs := x
    pc := pc
    prog := prog
    cfg :=
      { State.reset.cfg with
        ipbValid := ip.isSome
        ipbIdx := ip.getD 0
        nreg := x.length
        len := prog.length
        regWidth := w } }

/-- The start state of spec/95_test_vectors.md section 2, with an empty program. -/
def vec (w : RegWidth) : State := machineAt [3, -7, 0, 9223372036854775807] 0 [] none w

/-- The register file and the run state after an outcome. -/
def after : Host.Outcome State Fault Refusal → Option (List Int × RunState)
  | .next t => some (t.regs, t.status.state)
  | .fault _ => none
  | .refused _ => none

/-- The program counter, the count of steps and the register file after an outcome. -/
def progress : Host.Outcome State Fault Refusal → Option (Int × Nat × List Int)
  | .next t => some (t.pc, t.status.steps, t.regs)
  | .fault _ => none
  | .refused _ => none

/-- The launch of `prog` with `nreg` registers and the given initial file, on a machine of width `w`. -/
def launched (w : RegWidth) (nreg : Int) (init : List Int) (ip : Option Int) (prog : List Record) : State :=
  launch { prog := prog, ipb := ip, nreg := nreg, init := init }
    { State.reset with cfg := { State.reset.cfg with regWidth := w } }

/-- What a launch reports: the state, the code's number, the index and the field. -/
def report (s : State) : RunState × Option (Nat × Int × ErrField) :=
  (s.status.state, s.errPort.map fun e => (e.code, e.index, e.field))

/-! ## Decoding: the sixteen opcode numbers of R72, written out bit by bit -/

theorem test_decode_addr : decode ⟨0b00000000#8, 1, -2, 3⟩ = .ok (.addr 1 (-2) 3) := rfl
theorem test_decode_addi : decode ⟨0b00000001#8, 1, -2, 3⟩ = .ok (.addi 1 (-2) 3) := rfl
theorem test_decode_mulr : decode ⟨0b00000010#8, 1, -2, 3⟩ = .ok (.mulr 1 (-2) 3) := rfl
theorem test_decode_muli : decode ⟨0b00000011#8, 1, -2, 3⟩ = .ok (.muli 1 (-2) 3) := rfl
theorem test_decode_banr : decode ⟨0b00000100#8, 1, -2, 3⟩ = .ok (.banr 1 (-2) 3) := rfl
theorem test_decode_bani : decode ⟨0b00000101#8, 1, -2, 3⟩ = .ok (.bani 1 (-2) 3) := rfl
theorem test_decode_borr : decode ⟨0b00000110#8, 1, -2, 3⟩ = .ok (.borr 1 (-2) 3) := rfl
theorem test_decode_bori : decode ⟨0b00000111#8, 1, -2, 3⟩ = .ok (.bori 1 (-2) 3) := rfl
theorem test_decode_setr : decode ⟨0b00001000#8, 1, -2, 3⟩ = .ok (.setr 1 (-2) 3) := rfl
theorem test_decode_seti : decode ⟨0b00001001#8, 1, -2, 3⟩ = .ok (.seti 1 (-2) 3) := rfl
theorem test_decode_gtrr : decode ⟨0b00001010#8, 1, -2, 3⟩ = .ok (.gtrr 1 (-2) 3) := rfl
theorem test_decode_gtri : decode ⟨0b00001011#8, 1, -2, 3⟩ = .ok (.gtri 1 (-2) 3) := rfl
theorem test_decode_gtir : decode ⟨0b00001100#8, 1, -2, 3⟩ = .ok (.gtir 1 (-2) 3) := rfl
theorem test_decode_eqrr : decode ⟨0b00001101#8, 1, -2, 3⟩ = .ok (.eqrr 1 (-2) 3) := rfl
theorem test_decode_eqri : decode ⟨0b00001110#8, 1, -2, 3⟩ = .ok (.eqri 1 (-2) 3) := rfl
theorem test_decode_eqir : decode ⟨0b00001111#8, 1, -2, 3⟩ = .ok (.eqir 1 (-2) 3) := rfl

theorem test_decode_illegal_low : decode ⟨0b00010000#8, 0, 0, 0⟩ = .error (.illegalOpcode 0x10#8) := rfl

theorem test_decode_illegal_high : decode ⟨0b11111111#8, 0, 0, 0⟩ = .error (.illegalOpcode 0xFF#8) := rfl

theorem test_table_word_first : decodeTableWord 8 0x00 = some (.addr 0 0 0) := by decide

theorem test_table_word_last : decodeTableWord 8 0x0F = some (.eqir 0 0 0) := by decide

theorem test_table_word_illegal : decodeTableWord 8 0x10 = none := by decide

/-- R81, P1's third line. -/
theorem test_text_line : recordOfLine ⟨"addi", 0, 1, 0⟩ = ⟨0x01#8, 0, 1, 0⟩ := by decide

/-! ## Well-formedness: each check of R77 refuses an ill-formed term -/

theorem test_wf_accepts : (Instr.addi 5 (-9) 0).wellFormed 6 .unbounded = true := by decide

theorem test_wf_refuses_destination : (Instr.seti 1 0 6).wellFormed 6 .unbounded = false := by decide

theorem test_wf_refuses_negative_destination : (Instr.seti 1 0 (-1)).wellFormed 6 .unbounded = false := by decide

theorem test_wf_refuses_source_a : (Instr.addr 6 0 0).wellFormed 6 .unbounded = false := by decide

theorem test_wf_refuses_source_b : (Instr.gtrr 0 (-1) 0).wellFormed 6 .unbounded = false := by decide

theorem test_wf_refuses_immediate_a :
    (Instr.seti 9223372036854775808 0 0).wellFormed 1 (.finite 64) = false := by decide

theorem test_wf_refuses_immediate_b :
    (Instr.addi 0 (-9223372036854775809) 0).wellFormed 1 (.finite 64) = false := by decide

theorem test_wf_ignores_b : (Instr.setr 1 999 0).wellFormed 4 (.finite 64) = true := by decide

/-! ## The instructions, on rows of spec/95_test_vectors.md section 2 -/

theorem test_addr_same_register : after (exec (.addr 1 1 1) (vec .unbounded)) =
    some ([3, -14, 0, 9223372036854775807], .running) := by decide

theorem test_addr_overflow : after (exec (.addr 3 3 2) (vec (.finite 64))) =
    some ([3, -7, 0, 9223372036854775807], .overflow) := by decide

theorem test_addi_negative : after (exec (.addi 0 (-5) 0) (vec .unbounded)) =
    some ([-2, -7, 0, 9223372036854775807], .running) := by decide

theorem test_addi_past_64_bits : after (exec (.addi 3 1 3) (vec .unbounded)) =
    some ([3, -7, 0, 9223372036854775808], .running) := by decide

theorem test_mulr_exact : after (exec (.mulr 3 3 2) (vec .unbounded)) =
    some ([3, -7, 85070591730234615847396907784232501249, 9223372036854775807], .running) := by decide

theorem test_mulr_squares : after (exec (.mulr 1 1 1) (vec .unbounded)) =
    some ([3, 49, 0, 9223372036854775807], .running) := by decide

theorem test_muli_two_negatives : after (exec (.muli 1 (-3) 1) (vec .unbounded)) =
    some ([3, 21, 0, 9223372036854775807], .running) := by decide

theorem test_muli_overflow : after (exec (.muli 3 2 2) (vec (.finite 64))) =
    some ([3, -7, 0, 9223372036854775807], .overflow) := by decide

theorem test_banr_mixed_signs : after (exec (.banr 0 1 2) (vec .unbounded)) =
    some ([3, -7, 1, 9223372036854775807], .running) := by decide

theorem test_banr_wide : after (exec (.banr 3 1 0) (vec .unbounded)) =
    some ([9223372036854775801, -7, 0, 9223372036854775807], .running) := by decide

theorem test_bani_minus_one : after (exec (.bani 1 (-1) 2) (vec .unbounded)) =
    some ([3, -7, -7, 9223372036854775807], .running) := by decide

theorem test_bani_low_bits : after (exec (.bani 1 3 2) (vec .unbounded)) =
    some ([3, -7, 1, 9223372036854775807], .running) := by decide

theorem test_borr_mixed_signs : after (exec (.borr 0 1 2) (vec .unbounded)) =
    some ([3, -7, -5, 9223372036854775807], .running) := by decide

theorem test_borr_copies : after (exec (.borr 1 2 1) (vec .unbounded)) =
    some ([3, -7, 0, 9223372036854775807], .running) := by decide

theorem test_bori_sign_bit : after (exec (.bori 3 (-9223372036854775808) 3) (vec (.finite 64))) =
    some ([3, -7, 0, -1], .running) := by decide

theorem test_bori_set_bit : after (exec (.bori 1 8 2) (vec .unbounded)) =
    some ([3, -7, -7, 9223372036854775807], .running) := by decide

theorem test_setr_ignores_b : after (exec (.setr 1 999 0) (vec .unbounded)) =
    some ([-7, -7, 0, 9223372036854775807], .running) := by decide

theorem test_setr_copies : after (exec (.setr 3 (-5) 2) (vec .unbounded)) =
    some ([3, -7, 9223372036854775807, 9223372036854775807], .running) := by decide

theorem test_seti_negative : after (exec (.seti (-42) 12345 3) (vec .unbounded)) =
    some ([3, -7, 0, -42], .running) := by decide

theorem test_seti_wide : after (exec (.seti 1180591620717411303424 0 0) (vec .unbounded)) =
    some ([1180591620717411303424, -7, 0, 9223372036854775807], .running) := by decide

theorem test_gtrr_equal_is_not_greater : after (exec (.gtrr 0 0 2) (vec .unbounded)) =
    some ([3, -7, 0, 9223372036854775807], .running) := by decide

theorem test_gtrr_source_is_destination : after (exec (.gtrr 3 0 3) (vec .unbounded)) =
    some ([3, -7, 0, 1], .running) := by decide

theorem test_gtri_greater : after (exec (.gtri 1 (-8) 2) (vec .unbounded)) =
    some ([3, -7, 1, 9223372036854775807], .running) := by decide

theorem test_gtri_equal : after (exec (.gtri 1 (-7) 2) (vec .unbounded)) =
    some ([3, -7, 0, 9223372036854775807], .running) := by decide

theorem test_gtir_left_is_immediate : after (exec (.gtir (-6) 1 2) (vec .unbounded)) =
    some ([3, -7, 1, 9223372036854775807], .running) := by decide

theorem test_gtir_equal : after (exec (.gtir 3 0 2) (vec .unbounded)) =
    some ([3, -7, 0, 9223372036854775807], .running) := by decide

theorem test_eqrr_self : after (exec (.eqrr 2 2 1) (vec .unbounded)) =
    some ([3, 1, 0, 9223372036854775807], .running) := by decide

theorem test_eqrr_differs : after (exec (.eqrr 0 1 2) (vec .unbounded)) =
    some ([3, -7, 0, 9223372036854775807], .running) := by decide

theorem test_eqri_negative : after (exec (.eqri 1 (-7) 2) (vec .unbounded)) =
    some ([3, -7, 1, 9223372036854775807], .running) := by decide

theorem test_eqri_differs : after (exec (.eqri 0 4 0) (vec .unbounded)) =
    some ([0, -7, 0, 9223372036854775807], .running) := by decide

theorem test_eqir_reads_before_write : after (exec (.eqir 0 2 2) (vec .unbounded)) =
    some ([3, -7, 1, 9223372036854775807], .running) := by decide

theorem test_eqir_differs : after (exec (.eqir (-7) 0 1) (vec .unbounded)) =
    some ([3, 0, 0, 9223372036854775807], .running) := by decide

/-! ## The engine, one step at a time -/

/-- E5: the absolute jump `seti 3 0 0` with register 0 bound goes on at 4, not 3. -/
theorem test_step_absolute_jump :
    progress (step (machineAt [0, 0, 0] 0 [encode (.seti 3 0 0)] (some 0) .unbounded)) = some (4, 1, [3, 0, 0]) := by
  decide

/-- E8: what was left in the bound register is replaced by `pc` before `setr 0 0 2` reads it. -/
theorem test_step_mirror_before_execute :
    progress (step (machineAt [0, 0, 0] 1 [encode (.seti 0 0 0), encode (.setr 0 0 2)] (some 0) .unbounded)) =
      some (2, 1, [1, 0, 1]) := by
  decide

/-- L1-4, E10: a write of -1 to the bound register goes on at 0. -/
theorem test_step_minus_one_restarts :
    progress (step (machineAt [0] 0 [encode (.seti (-1) 0 0)] (some 0) .unbounded)) = some (0, 1, [-1]) := by decide

/-- L1-4, E9: a write of -2 leaves `pc` at -1, where the next check halts. -/
theorem test_step_minus_two_leaves :
    progress (step (machineAt [0] 0 [encode (.seti (-2) 0 0)] (some 0) .unbounded)) = some (-1, 1, [-2]) := by decide

theorem test_step_halts_below_zero :
    after (step (machineAt [-2] (-1) [encode (.seti (-2) 0 0)] (some 0) .unbounded)) = some ([-2], .halted) := by decide

/-- E13: unbound, the same write is an ordinary one. -/
theorem test_step_unbound :
    progress (step (machineAt [0] 0 [encode (.seti (-2) 0 0)] none .unbounded)) = some (1, 1, [-2]) := by decide

/-- X15: the overflowing step of P6 counts nothing and keeps `pc`; the mirror of its step (c) stands. -/
theorem test_step_overflow :
    progress (step (machineAt [4611686018427387904, 0] 1 [encode (.seti 1 0 0), encode (.addr 0 0 0)] (some 1)
      (.finite 64))) = some (1, 0, [4611686018427387904, 1]) := by
  decide

/-- E10: a used-up budget ends the run before the fetch. -/
theorem test_step_budget :
    after (step { machineAt [0] 0 [encode (.seti (-1) 0 0)] (some 0) .unbounded with stepBudget := some 0 }) =
      some ([0], .budgetExceeded) := by
  decide

/-- E11: the halt check comes before the budget test. -/
theorem test_step_halt_beats_budget :
    after (step { machineAt [7] 0 [] none .unbounded with stepBudget := some 0 }) = some ([7], .halted) := by decide

/-- From reset, with a table word placed, the step runs that instruction: `pc` moves on and one step is counted. -/
theorem test_step_runs_each_table_word :
    ∀ w < 16, (progress (step (State.reset.withFetchWord 8 w))).map (fun p => (p.1, p.2.1)) = some (1, 1) := by
  decide

/-- From reset with nothing placed, the empty program halts at the first step (E1). -/
theorem test_step_reset_halts : after (step State.reset) = some ([0, 0, 0, 0, 0, 0], .halted) := by decide

/-! ## The launch, on the rows of the load error table -/

theorem test_launch_destination :
    report (launched .unbounded 6 [0, 0, 0, 0, 0, 0] none [encode (.seti 1 0 6)]) =
      (.loadError, some (5, 0, .c)) := by decide

theorem test_launch_unknown_mnemonic :
    report (launched .unbounded 2 [0, 0] none ([⟨"seti", 0, 0, 0⟩, ⟨"halt", 0, 0, 0⟩].map recordOfLine)) =
      (.loadError, some (4, 1, .op)) := by decide

theorem test_launch_init_length :
    report (launched .unbounded 6 [0, 0, 0, 0, 0] none []) = (.loadError, some (1, -1, .init)) := by decide

theorem test_launch_no_register :
    report (launched .unbounded 0 [] none []) = (.loadError, some (1, -1, .nreg)) := by decide

theorem test_launch_source_a :
    report (launched .unbounded 2 [0, 0] none [encode (.addr 6 0 0)]) = (.loadError, some (6, 0, .a)) := by decide

theorem test_launch_source_b :
    report (launched .unbounded 2 [0, 0] none [encode (.gtrr 0 (-1) 0)]) = (.loadError, some (6, 0, .b)) := by decide

theorem test_launch_binding :
    report (launched .unbounded 2 [0, 0] (some 2) []) = (.loadError, some (2, -1, .ipb)) := by decide

/-- X10: the first error by index wins. -/
theorem test_launch_first_error :
    report (launched .unbounded 2 [0, 0] none [encode (.seti 0 0 0), encode (.seti 0 0 9), ⟨0x10#8, 0, 0, 0⟩]) =
      (.loadError, some (5, 1, .c)) := by decide

theorem test_launch_immediate :
    report (launched (.finite 64) 1 [0] none [encode (.seti 9223372036854775808 0 0)]) =
      (.loadError, some (7, 0, .a)) := by decide

theorem test_launch_initial_value :
    report (launched (.finite 64) 1 [9223372036854775808] none []) = (.loadError, some (3, -1, .init)) := by decide

/-- X12: the ignored operand is not checked. -/
theorem test_launch_accepts :
    report (launched (.finite 64) 2 [3, -7] (some 1) [encode (.setr 1 999 0)]) = (.running, none) := by decide

/-- E1, L1-4: the result of an empty program's run is its launch file. -/
theorem test_result_of_empty_program :
    (match step (launched .unbounded 3 [1, 2, 3] (some 0) []) with
      | .next t => t.result
      | .fault _ => none
      | .refused _ => none) = some (.halted [1, 2, 3]) := by decide

/-! ## Witnesses: the hypotheses of each statement can be met, clause by clause -/

/-- Two registers, the first bound, `pc` at 0 of a program of two records. -/
def bound (w : RegWidth) (i j : Instr) : State := machineAt [7, 9] 0 [encode i, encode j] (some 0) w

/-- The same with no bound register. -/
def unbound (w : RegWidth) (i j : Instr) : State := machineAt [7, 9] 0 [encode i, encode j] none w

/-- The launch inputs of a two-record program with `ENTRY_PC` and `IPB` given. -/
def inputs (ip : Option Int) (entry : Int) : LaunchInputs :=
  { prog := [encode (.seti 5 0 1), encode (.addi 0 1 0)], ipb := ip, nreg := 2, init := [0, 0], entryPc := entry }

theorem inputs_acceptable (entry : Int) (w : RegWidth) (h : w = .unbounded ∨ w = .finite 64) :
    (inputs (some 0) entry).Acceptable w ∧ (inputs none entry).Acceptable w := by
  have hp : ∀ r ∈ [encode (.seti 5 0 1), encode (.addi 0 1 0)],
      ∃ i : Instr, i.wellFormed 2 w = true ∧ encode i = r := by
    intro r hr
    rcases List.mem_pair.mp hr with rfl | rfl
    · exact ⟨.seti 5 0 1, by rcases h with rfl | rfl <;> decide, rfl⟩
    · exact ⟨.addi 0 1 0, by rcases h with rfl | rfl <;> decide, rfl⟩
  have hi : ∀ v ∈ ([0, 0] : List Int), inRange w v = true := by rcases h with rfl | rfl <;> decide
  exact ⟨⟨by simp [inputs], rfl, by simp [inputs], hi, hp⟩, ⟨by simp [inputs], rfl, by simp [inputs], hi, hp⟩⟩

theorem witness_DecodingIsTotalAndExclusive :
    (⟨0x0F#8, 0, 0, 0⟩ : Record).op.toNat < 16 ∧ 16 ≤ (⟨0x10#8, 0, 0, 0⟩ : Record).op.toNat := by decide

theorem witness_TextBecomesRecords : ∀ i : Instr, mnemonic i ≠ (⟨"halt", 0, 0, 0⟩ : TextLine).tag := by
  intro i; cases i <;> simp [mnemonic]

theorem witness_AddWritesTheExactSum :
    (vec (.finite 64)).Holds 3 9223372036854775807 ∧ (vec (.finite 64)).Names 0 ∧ (vec (.finite 64)).Names 3 ∧
    ((vec (.finite 64)).Holds 2 0 ∧ (vec (.finite 64)).Fits (9223372036854775807 + 0)) ∧
    ((vec (.finite 64)).Holds 0 3 ∧ ¬ (vec (.finite 64)).Fits (9223372036854775807 + 3)) ∧
    (vec (.finite 64)).Fits (9223372036854775807 + 0) ∧ ¬ (vec (.finite 64)).Fits (9223372036854775807 + 1) := by decide

theorem witness_MultiplyWritesTheExactProduct :
    (vec (.finite 64)).Holds 3 9223372036854775807 ∧ (vec (.finite 64)).Names 0 ∧ (vec (.finite 64)).Names 3 ∧
    ((vec (.finite 64)).Holds 2 0 ∧ (vec (.finite 64)).Fits (9223372036854775807 * 0)) ∧
    ((vec (.finite 64)).Holds 0 3 ∧ ¬ (vec (.finite 64)).Fits (9223372036854775807 * 3)) ∧
    (vec (.finite 64)).Fits (9223372036854775807 * (-1)) ∧
    ¬ (vec (.finite 64)).Fits (9223372036854775807 * 2) := by decide

/-- For `AndWritesTheCommonBits` and `OrWritesTheUnitedBits`, whose hypotheses are the same. -/
theorem witness_AndWritesTheCommonBits :
    (vec (.finite 64)).cfg.regWidth.legal = true ∧ (vec (.finite 64)).Holds 3 9223372036854775807 ∧
    (vec (.finite 64)).Fits 9223372036854775807 ∧ (vec (.finite 64)).Names 3 ∧
    ((vec (.finite 64)).Holds 1 (-7) ∧ (vec (.finite 64)).Fits (-7)) ∧
    (vec (.finite 64)).Fits (-9223372036854775808) := by decide

/-- See `witness_AndWritesTheCommonBits`. -/
theorem witness_OrWritesTheUnitedBits :
    (vec .unbounded).cfg.regWidth.legal = true ∧ (vec .unbounded).Holds 1 (-7) ∧ (vec .unbounded).Fits (-7) ∧
    (vec .unbounded).Names 0 ∧ ((vec .unbounded).Holds 0 3 ∧ (vec .unbounded).Fits 3) ∧
    (vec .unbounded).Fits 18446744073709551616 := by decide

theorem witness_AssignCopiesOrLoads :
    (vec (.finite 64)).Names 3 ∧
    ((vec (.finite 64)).Holds 1 (-7) ∧ (vec (.finite 64)).Fits (-7)) ∧
    (vec (.finite 64)).Fits (-9223372036854775808) ∧ ¬ (vec (.finite 64)).Fits 9223372036854775808 := by decide

theorem witness_GreaterThanWritesZeroOrOne :
    (vec (.finite 64)).cfg.regWidth.legal = true ∧ (vec (.finite 64)).Names 0 ∧
    ((vec (.finite 64)).Holds 0 3 ∧ (vec (.finite 64)).Holds 1 (-7)) := by decide

theorem witness_EqualWritesZeroOrOne :
    (vec (.finite 64)).cfg.regWidth.legal = true ∧ (vec (.finite 64)).Names 3 ∧
    ((vec (.finite 64)).Holds 2 0 ∧ (vec (.finite 64)).Holds 3 9223372036854775807) := by decide

theorem witness_BitwiseLawOnUnlimitedTwosComplement : ∀ k, bitAt k (-7) = 1 ↔ bitAt k (-7) = 1 := fun _ => Iff.rfl

theorem witness_BitwiseResultsStayInRange :
    (inRange (.finite 64) (-9223372036854775808) = true ∧ inRange (.finite 64) 9223372036854775807 = true) ∧
    ((vec (.finite 64)).status.state = .running ∧ (∀ v ∈ (vec (.finite 64)).regs, (vec (.finite 64)).Fits v) ∧
      (vec (.finite 64)).Fits 1 ∧ after (exec (.banr 3 1 0) (vec (.finite 64))) ≠ none) ∧
    ((0 : Int) ≤ 0 ∧ (0 : Int) ≤ 9223372036854775807) := by decide

theorem witness_ExecIsAPureFunctionOfTheRegisterFile :
    (Instr.addr 3 3 3).wellFormed [3, -7, 0, 9223372036854775807].length .unbounded = true ∧
    ((vec .unbounded).regs = [3, -7, 0, 9223372036854775807] ∧
      (vec .unbounded).Fits (9223372036854775807 + 9223372036854775807)) ∧
    ((vec (.finite 64)).regs = [3, -7, 0, 9223372036854775807] ∧
      ¬ (vec (.finite 64)).Fits (9223372036854775807 + 9223372036854775807)) := by decide

theorem witness_OnlyAddAndMultiplyOverflow :
    (vec (.finite 64)).cfg.regWidth.legal = true ∧ (vec (.finite 64)).status.state = .running ∧
    (∀ v ∈ (vec (.finite 64)).regs, (vec (.finite 64)).Fits v) ∧
    (Instr.mulr 3 3 3).wellFormed (vec (.finite 64)).regs.length (vec (.finite 64)).cfg.regWidth = true := by decide

theorem witness_MissingRegisterFaults :
    (Instr.addr 4 0 0).wellFormed (vec .unbounded).regs.length .unbounded = false ∧
    (Instr.gtir 0 (-1) 0).wellFormed (vec .unbounded).regs.length .unbounded = false ∧
    (Instr.seti 0 0 4).wellFormed (vec .unbounded).regs.length .unbounded = false := by decide

theorem witness_StepRunsTheDecodedInstruction :
    (∃ t, (unbound .unbounded (.seti 1 0 1) (.seti 1 0 1)).CanRun ∧
      (unbound .unbounded (.seti 1 0 1) (.seti 1 0 1)).Fetches (.seti 1 0 1) ∧
      (unbound .unbounded (.seti 1 0 1) (.seti 1 0 1)).BindingOk ∧
      exec (.seti 1 0 1) (unbound .unbounded (.seti 1 0 1) (.seti 1 0 1)).mirrored = .next t ∧
      t.status.state = .running ∧ t.cfg.ipbValid = false) ∧
    (∃ t v, (bound .unbounded (.seti 1 0 1) (.seti 1 0 1)).CanRun ∧
      (bound .unbounded (.seti 1 0 1) (.seti 1 0 1)).Fetches (.seti 1 0 1) ∧
      (bound .unbounded (.seti 1 0 1) (.seti 1 0 1)).BindingOk ∧
      exec (.seti 1 0 1) (bound .unbounded (.seti 1 0 1) (.seti 1 0 1)).mirrored = .next t ∧
      t.status.state = .running ∧ t.cfg.ipbValid = true ∧ t.Holds t.cfg.ipbIdx v) ∧
    (∃ t, (bound (.finite 64) (.addi 1 9223372036854775807 1) (.seti 1 0 1)).CanRun ∧
      (bound (.finite 64) (.addi 1 9223372036854775807 1) (.seti 1 0 1)).Fetches (.addi 1 9223372036854775807 1) ∧
      (bound (.finite 64) (.addi 1 9223372036854775807 1) (.seti 1 0 1)).BindingOk ∧
      exec (.addi 1 9223372036854775807 1)
        (bound (.finite 64) (.addi 1 9223372036854775807 1) (.seti 1 0 1)).mirrored = .next t ∧
      t.status.state ≠ .running) ∧
    ((bound .unbounded (.seti 1 0 2) (.seti 1 0 1)).CanRun ∧
      (bound .unbounded (.seti 1 0 2) (.seti 1 0 1)).Fetches (.seti 1 0 2) ∧
      (bound .unbounded (.seti 1 0 2) (.seti 1 0 1)).BindingOk ∧
      exec (.seti 1 0 2) (bound .unbounded (.seti 1 0 2) (.seti 1 0 1)).mirrored = .fault .noSuchRegister) := by
  refine ⟨⟨_, by decide, ⟨_, by decide, rfl, rfl⟩, by decide, rfl, by decide, by decide⟩,
    ⟨_, 0, by decide, ⟨_, by decide, rfl, rfl⟩, by decide, rfl, by decide, by decide, by decide⟩,
    ⟨_, by decide, ⟨_, by decide, rfl, rfl⟩, by decide, rfl, by decide⟩,
    ⟨by decide, ⟨_, by decide, rfl, rfl⟩, by decide, rfl⟩⟩

theorem witness_LeavingTheProgramIsTheOnlyNormalEnd :
    ((machineAt [0] (-1) [] none .unbounded).status.state = .running ∧
      (machineAt [0] (-1) [] none .unbounded).pc < 0) ∧
    ((machineAt [0] 0 [] none .unbounded).status.state = .running ∧
      ((machineAt [0] 0 [] none .unbounded).cfg.len : Int) ≤ (machineAt [0] 0 [] none .unbounded).pc) ∧
    ((bound .unbounded (.seti 1 0 1) (.seti 1 0 1)).CanRun ∧
      after (step (bound .unbounded (.seti 1 0 1) (.seti 1 0 1))) ≠ none) := by decide

theorem witness_BudgetEndsARunAndDoesNothingElse :
    (∃ s : State, s.status.state = .running ∧ s.pc < 0 ∧ s.stepBudget = some s.status.steps) ∧
    (∃ s : State, s.status.state = .running ∧ 0 ≤ s.pc ∧ s.pc < (s.cfg.len : Int) ∧
      s.stepBudget = some s.status.steps) ∧
    (∃ s t : State, s.status.state = .running ∧ s.stepBudget = some (s.status.steps + 1) ∧
      step { s with stepBudget := none } = .next t ∧ t.status.steps = s.status.steps + 1) := by
  refine ⟨⟨{ machineAt [0] (-1) [] none .unbounded with stepBudget := some 0 }, by decide⟩,
    ⟨{ bound .unbounded (.seti 1 0 1) (.seti 1 0 1) with stepBudget := some 0 }, by decide⟩,
    ⟨{ bound .unbounded (.seti 1 0 1) (.seti 1 0 1) with stepBudget := some 1 }, _, by decide, by decide, rfl,
      by decide⟩⟩

theorem witness_TerminalStatesAreFinal : State.reset.halt.status.state ≠ .running := by decide

theorem witness_StatesNoLaunchGivesFault :
    (∃ s : State, s.CanRun ∧ s.prog.length ≤ s.pc.toNat) ∧
    (∃ (s : State) (r : Record), s.CanRun ∧ s.prog[s.pc.toNat]? = some r ∧ 16 ≤ r.op.toNat) ∧
    (∃ (s : State) (i : Instr), s.CanRun ∧ s.Fetches i ∧ ¬ s.BindingOk) := by
  refine ⟨⟨{ bound .unbounded (.seti 1 0 1) (.seti 1 0 1) with prog := [] }, by decide, by decide⟩,
    ⟨machineAt [0] 0 [⟨0x10#8, 0, 0, 0⟩] none .unbounded, ⟨0x10#8, 0, 0, 0⟩, by decide, by decide, by decide⟩,
    ⟨machineAt [0] 0 [encode (.seti 1 0 0)] (some 1) .unbounded, .seti 1 0 0, by decide,
      ⟨_, by decide, rfl, rfl⟩, by decide⟩⟩

/-- A machine whose one instruction jumps, by writing `v` into the bound register 0 of a program of `n + 1` records. -/
def jump (v : Int) (n : Nat) : State :=
  machineAt [7] 0 (encode (.seti v 0 0) :: List.replicate n (encode (.seti 0 0 0))) (some 0) .unbounded

/-- The values of `V` at which the clauses meet: -2, -1, `L - 2` and `L - 1`, here with `L = 3`; and an instruction that does
not write the bound register; and the relative jump. -/
theorem witness_BoundRegisterWriteIsAJump :
    (∀ v ∈ ([-2, -1, 1, 2] : List Int), (jump v 2).CanRun ∧ (jump v 2).Binds 0 ∧
      progress (step (jump v 2)) = some (v + 1, 1, [v]) ∧ after (step (jump v 2)) = some ([v], .running)) ∧
    (∀ v, (jump v 2).Fetches (.seti v 0 0)) ∧
    ((bound .unbounded (.seti 1 0 1) (.seti 1 0 1)).CanRun ∧ (Instr.seti 1 0 1).dest ≠ ((0 : Nat) : Int) ∧
      (bound .unbounded (.seti 1 0 1) (.seti 1 0 1)).Binds 0 ∧
      progress (step (bound .unbounded (.seti 1 0 1) (.seti 1 0 1))) = some (1, 1, [0, 1])) ∧
    progress (step (bound .unbounded (.addi 0 1 0) (.seti 1 0 1))) = some (2, 1, [1, 9]) := by
  exact ⟨by decide, fun v => ⟨_, Int.le_refl 0, rfl, rfl⟩, by decide, by decide⟩

theorem witness_IncrementLeavesTheBoundRegisterBehind :
    ((bound .unbounded (.seti 1 0 1) (.seti 1 0 1)).CanRun ∧ (bound .unbounded (.seti 1 0 1) (.seti 1 0 1)).Binds 0 ∧
      after (step (bound .unbounded (.seti 1 0 1) (.seti 1 0 1))) = some ([0, 1], .running)) ∧
    ((unbound .unbounded (.seti 1 0 1) (.seti 1 0 1)).CanRun ∧
      (unbound .unbounded (.seti 1 0 1) (.seti 1 0 1)).cfg.ipbValid = false ∧
      after (step (unbound .unbounded (.seti 1 0 1) (.seti 1 0 1))) = some ([7, 1], .running)) := by decide

theorem witness_InstructionReadsItsOwnAddress :
    ((bound (.finite 64) (.setr 0 5 1) (.seti 1 0 1)).CanRun ∧
      (bound (.finite 64) (.setr 0 5 1) (.seti 1 0 1)).Binds 0 ∧
      (bound (.finite 64) (.setr 0 5 1) (.seti 1 0 1)).Fetches (.setr 0 5 1) ∧
      (bound (.finite 64) (.setr 0 5 1) (.seti 1 0 1)).Fits (bound (.finite 64) (.setr 0 5 1) (.seti 1 0 1)).pc ∧
      (bound (.finite 64) (.setr 0 5 1) (.seti 1 0 1)).Names 1) ∧
    (∃ t, (unbound .unbounded (.seti 1 0 1) (.seti 1 0 1)).CanRun ∧
      (unbound .unbounded (.seti 1 0 1) (.seti 1 0 1)).Fetches (.seti 1 0 1) ∧
      (unbound .unbounded (.seti 1 0 1) (.seti 1 0 1)).cfg.ipbValid = false ∧
      step (unbound .unbounded (.seti 1 0 1) (.seti 1 0 1)) = .next t ∧
      (0 : Int) ≠ (Instr.seti 1 0 1).dest ∧ (unbound .unbounded (.seti 1 0 1) (.seti 1 0 1)).Holds 0 7) := by
  exact ⟨⟨by decide, by decide, ⟨_, by decide, rfl, rfl⟩, by decide, by decide⟩,
    ⟨_, by decide, ⟨_, by decide, rfl, rfl⟩, by decide, rfl, by decide, by decide⟩⟩

/-- The hypotheses of every clause, on `bound` with the clause's instruction fetched. -/
theorem witness_ControlFlowIdioms :
    (∀ i : Instr, (bound (.finite 64) i i).CanRun ∧ (bound (.finite 64) i i).Binds 0) ∧
    (∀ i : Instr, i ∈ [Instr.seti (5 - 1) 0 0, .addi 0 1 0, .addr 1 0 0, .addr 0 1 0, .setr 1 0 0, .seti (-2) 0 0,
      .seti 1 0 0, .setr 1 0 1, .seti 3 0 1, .addi 1 0 1, .setr 0 0 0] → (bound (.finite 64) i i).Fetches i) ∧
    (∀ i : Instr, (bound (.finite 64) i i).Holds 1 9 ∧ (bound (.finite 64) i i).Names 1 ∧
      (∀ v ∈ ([4, 1, 9, -2, 3, 0] : List Int), (bound (.finite 64) i i).Fits v) ∧
      (bound (.finite 64) i i).pc = 0 ∧ ((bound (.finite 64) i i).cfg.len : Int) - 1 = 1) := by
  have fits : ∀ v ∈ ([4, 1, 9, -2, 3, 0] : List Int), inRange (.finite 64) v = true := by decide
  refine ⟨fun i => ⟨⟨rfl, Int.le_refl 0, by simp [bound, machineAt], nofun⟩, rfl, rfl, by simp [bound, machineAt]⟩, ?_,
    fun i => ⟨⟨Int.le_of_lt Int.one_pos, rfl⟩, ⟨Int.le_of_lt Int.one_pos, by simp [bound, machineAt]⟩, fits, rfl, rfl⟩⟩
  intro i hi
  refine ⟨encode i, Int.le_refl 0, rfl, ?_⟩
  revert i; decide

theorem witness_OverflowIsPreciseAndTerminal :
    ∃ t, (bound (.finite 64) (.addi 1 9223372036854775807 1) (.seti 1 0 1)).CanRun ∧
      (bound (.finite 64) (.addi 1 9223372036854775807 1) (.seti 1 0 1)).Fetches (.addi 1 9223372036854775807 1) ∧
      (bound (.finite 64) (.addi 1 9223372036854775807 1) (.seti 1 0 1)).BindingOk ∧
      exec (.addi 1 9223372036854775807 1)
        (bound (.finite 64) (.addi 1 9223372036854775807 1) (.seti 1 0 1)).mirrored = .next t ∧
      t.status.state = .overflow :=
  ⟨_, by decide, ⟨_, by decide, rfl, rfl⟩, by decide, rfl, by decide⟩

theorem witness_StepChangesNoProgramAndNoConfiguration :
    ∃ t, step (bound .unbounded (.seti 1 0 1) (.seti 1 0 1)) = .next t := ⟨_, rfl⟩

theorem witness_StepCounterIsInvisibleToPrograms :
    ∃ s t : State, s.ProgramAgrees t ∧ s.status.steps ≠ t.status.steps ∧ s.cfg.ipbIdx ≠ t.cfg.ipbIdx ∧
      after (runSteps 2 s) ≠ none := by
  refine ⟨unbound .unbounded (.seti 1 0 1) (.seti 2 0 1),
    { unbound .unbounded (.seti 1 0 1) (.seti 2 0 1) with
      cfg := { (unbound .unbounded (.seti 1 0 1) (.seti 2 0 1)).cfg with ipbIdx := 5 }
      status := { State.reset.status with steps := 9, errIndex := 4 } }, ?_, by decide, by decide, by decide⟩
  exact ⟨rfl, rfl, rfl, rfl, rfl, rfl, nofun, rfl, rfl, rfl, rfl⟩

theorem witness_LaunchSetsEveryPieceOfState :
    (inputs (some 0) 1).Acceptable State.reset.cfg.regWidth ∧ (inputs (some 0) 1).ipb = some 0 :=
  ⟨(inputs_acceptable 1 _ (.inl rfl)).1, by decide⟩

/-- The last index of the program, and the first outside it. -/
theorem witness_LaunchValueOfTheBoundRegister :
    ((inputs (some 0) 1).Acceptable State.reset.cfg.regWidth ∧ (inputs (some 0) 1).ipb = some 0 ∧
      0 ≤ (inputs (some 0) 1).entryPc ∧ (inputs (some 0) 1).entryPc < ((inputs (some 0) 1).prog.length : Int) ∧
      (inputs (some 0) 1).stepBudget ≠ some 0) ∧
    ((inputs (some 0) 2).Acceptable State.reset.cfg.regWidth ∧ (inputs (some 0) 2).ipb = some 0 ∧
      ((inputs (some 0) 2).prog.length : Int) ≤ (inputs (some 0) 2).entryPc) :=
  ⟨⟨(inputs_acceptable 1 _ (.inl rfl)).1, by decide, by decide, by decide, by decide⟩,
    ⟨(inputs_acceptable 2 _ (.inl rfl)).1, by decide, by decide⟩⟩

theorem witness_LaunchReportsTheFirstFailure :
    ((0 : Int) < 1 ∧ (([] : List Int).length : Int) = 0) ∧ ((([0] : List Int).length : Int) ≠ 2) ∧
    (¬ FieldNames (inputs (some 2) 0).nreg 2 ∧ (inputs (some 2) 0).ipb = some 2 ∧ 1 ≤ (inputs (some 2) 0).nreg ∧
      ((inputs (some 2) 0).init.length : Int) = (inputs (some 2) 0).nreg) ∧
    (∃ s : State, ∃ v ∈ ([9223372036854775808] : List Int), ¬ s.Fits v) ∧
    (RecordFails 2 .unbounded ⟨0x10#8, 0, 0, 0⟩ .opcode .op ∧
      RecordFails 2 .unbounded (encode (.seti 0 0 2)) .destRange .c ∧
      RecordFails 2 .unbounded (encode (.addr 2 2 0)) .srcRange .a ∧
      RecordFails 2 .unbounded (encode (.addr 1 (-1) 0)) .srcRange .b ∧
      RecordFails 2 (.finite 64) (encode (.seti 9223372036854775808 0 0)) .immRange .a ∧
      RecordFails 2 (.finite 64) (encode (.addi 0 9223372036854775808 0)) .immRange .b) ∧
    ((Instr.seti 5 0 1).wellFormed 2 .unbounded = true) := by
  refine ⟨by decide, by decide, by decide, ⟨vec (.finite 64), by decide⟩, ⟨.inl (by decide),
    .inr ⟨.seti 0 0 2, rfl, by decide⟩, .inr ⟨.addr 2 2 0, rfl, by decide⟩, .inr ⟨.addr 1 (-1) 0, rfl, by decide⟩,
    .inr ⟨.seti 9223372036854775808 0 0, rfl, by decide⟩, .inr ⟨.addi 0 9223372036854775808 0, rfl, by decide⟩⟩,
    by decide⟩

theorem witness_LaunchRunsExactlyWhatIsAcceptable :
    (inputs none 0).Acceptable .unbounded ∧ ¬ ({ inputs none 0 with nreg := 3 } : LaunchInputs).Acceptable .unbounded :=
  ⟨(inputs_acceptable 0 _ (.inl rfl)).2, fun h => absurd h.init_length (by decide)⟩

/-- Both ends: an entry of -1 and of `L`. -/
theorem witness_OutOfRangeEntryHaltsAtOnce :
    ((inputs (some 0) (-1)).Acceptable State.reset.cfg.regWidth ∧ (inputs (some 0) (-1)).entryPc < 0) ∧
    ((inputs (some 0) 2).Acceptable State.reset.cfg.regWidth ∧
      ((inputs (some 0) 2).prog.length : Int) ≤ (inputs (some 0) 2).entryPc) :=
  ⟨⟨(inputs_acceptable _ _ (.inl rfl)).1, by decide⟩, ⟨(inputs_acceptable _ _ (.inl rfl)).1, by decide⟩⟩

/-- For `RunOfAnAcceptedProgramRaisesNothing` and `ReRunningGivesTheSameResult`. -/
theorem witness_RunOfAnAcceptedProgramRaisesNothing :
    (inputs (some 0) 0).Acceptable State.reset.cfg.regWidth ∧ State.reset.cfg.regWidth = .unbounded ∧
    after (runSteps 2 (launch (inputs (some 0) 0) State.reset)) ≠ none :=
  ⟨(inputs_acceptable _ _ (.inl rfl)).1, rfl, by decide⟩

theorem witness_ReRunningGivesTheSameResult :
    State.reset.cfg.regWidth = State.reset.halt.cfg.regWidth ∧
    after (runSteps 2 (launch (inputs (some 0) 0) State.reset)) ≠ none := by decide

theorem witness_UnboundRunGoesStraightOnAndEnds :
    ((inputs none 1).Acceptable State.reset.cfg.regWidth ∧ (inputs none 1).ipb = none ∧
      State.reset.cfg.regWidth = .unbounded ∧ (inputs none 1).stepBudget = none) ∧
    (((1 : Nat) : Int) = if 0 ≤ (inputs none 1).entryPc then
      max 0 (((inputs none 1).prog.length : Int) - (inputs none 1).entryPc) else 0) ∧
    (((0 : Nat) : Int) = if 0 ≤ (inputs none (-1)).entryPc then
      max 0 (((inputs none (-1)).prog.length : Int) - (inputs none (-1)).entryPc) else 0) :=
  ⟨⟨(inputs_acceptable _ _ (.inl rfl)).2, by decide, by decide, by decide⟩, by decide, by decide⟩

/-- A run of two executed instructions that halts at its third step, and one that executes none. -/
theorem witness_FinalValueOfTheBoundRegister :
    ((inputs (some 0) 0).Acceptable State.reset.cfg.regWidth ∧ (inputs (some 0) 0).ipb = some 0 ∧
      after (runSteps 3 (launch (inputs (some 0) 0) State.reset)) = some ([2, 5], .halted)) ∧
    ((inputs (some 0) 2).Acceptable State.reset.cfg.regWidth ∧ (inputs (some 0) 2).ipb = some 0 ∧
      after (runSteps 1 (launch (inputs (some 0) 2) State.reset)) = some ([0, 0], .halted)) :=
  ⟨⟨(inputs_acceptable _ _ (.inl rfl)).1, by decide, by decide⟩,
    ⟨(inputs_acceptable _ _ (.inl rfl)).1, by decide, by decide⟩⟩

/-- One state for each run state; the halted one has the invariant. -/
theorem witness_HostSeesOnlyTheResult :
    State.reset.status.state = .running ∧
    (State.reset.halt.status.state = .halted ∧ State.reset.halt.Inv) ∧
    State.reset.exhaustBudget.status.state = .budgetExceeded ∧
    (State.reset.refused .opcode 0 .op).status.state = .loadError ∧ State.reset.overflow.status.state = .overflow := by
  refine ⟨by decide, ⟨by decide, ?_⟩, by decide, by decide, by decide⟩
  exact ⟨by decide, by decide, by decide, by decide, by decide, by decide, by decide, by decide, by decide, by decide,
    by decide, by decide, by decide, by decide⟩

/-- A running machine of finite width with a bound register and one executed instruction meets the invariant, and steps. For
the four statements about the invariant. -/
def inMotion : State :=
  { machineAt [0, 9] 1 [encode (.seti 1 0 1), encode (.addi 1 1 1)] (some 0) (.finite 64) with
    status := { State.reset.status with steps := 1 }
    stepBudget := some 2 }

theorem witness_StepKeepsTheInvariant : inMotion.Inv ∧ ∃ t, step inMotion = .next t := by
  refine ⟨⟨by decide, by decide, by decide, by decide, by decide, by decide, by decide, by decide, by decide, by decide,
    by decide, by decide, by decide, by decide⟩, ⟨_, rfl⟩⟩

theorem witness_InvariantExcludesFaults : inMotion.Inv := witness_StepKeepsTheInvariant.1

theorem witness_LaunchKeepsTheInvariant :
    inMotion.Inv ∧ ∀ k < (inputs none 0).prog.length, inRange inMotion.cfg.regWidth (k : Int) = true :=
  ⟨witness_StepKeepsTheInvariant.1, by decide⟩

theorem witness_ResetIsALaunchOfTheEmptyProgram : (vec .unbounded).cfg.regWidth = .unbounded := by decide

end Sys2Proof.Tests
end

/-! PROOFS. The launch whose inputs are acceptable (R35), and the fields of the state that no program reads (R33). -/

namespace Sys2Proof.Machine

/-! ## The checks of a launch pass on acceptable inputs -/

/-- R79: the decoder reads back the instruction whose record it is given. -/
@[simp] theorem decode_encode (i : Instr) : decode (encode i) = .ok i := by
  cases i <;> rfl

@[simp] theorem recordError_encode (nreg : Nat) (w : RegWidth) (i : Instr) :
    recordError nreg w (encode i) = instrError nreg w i := by
  simp [recordError]

/-- A field is checked by its kind alone: a register field for the file, an immediate for the width. -/
theorem fieldOk_iff {nreg : Nat} {w : RegWidth} {k : OperandKind} {f : Int} :
    k.fieldOk nreg w f = true ↔ (k = .reg → inFile nreg f = true) ∧ (k = .imm → inRange w f = true) := by
  cases k <;> simp [OperandKind.fieldOk]

/-- The ordered checks of a launch pass exactly for a well-formed instruction (R77). -/
theorem instrError_eq_none_iff {nreg : Nat} {w : RegWidth} {i : Instr} :
    instrError nreg w i = none ↔ i.wellFormed nreg w = true := by
  simp only [Instr.wellFormed, Bool.and_eq_true, fieldOk_iff]
  unfold instrError
  split_ifs <;> simp_all

theorem programError_eq_none_of_forall {nreg : Nat} {w : RegWidth} {prog : List Record}
    (h : ∀ r ∈ prog, recordError nreg w r = none) (k : Nat) : programError nreg w k prog = none := by
  induction prog generalizing k with
  | nil => rfl
  | cons r rest ih =>
    obtain ⟨hr, hrest⟩ := List.forall_mem_cons.mp h
    simp [programError, hr, ih hrest]

theorem LaunchInputs.Acceptable.regCountError_eq_none {inp : LaunchInputs} {w : RegWidth}
    (h : inp.Acceptable w) : regCountError inp = none := by
  have hpos : ¬ inp.nreg < 1 := not_lt.mpr h.nreg_pos
  simp [regCountError, hpos, h.init_length]

theorem LaunchInputs.Acceptable.ipbBad_eq_false {inp : LaunchInputs} {w : RegWidth}
    (h : inp.Acceptable w) : ipbBad inp = false := by
  unfold ipbBad
  split
  · rfl
  next ip hip =>
    obtain ⟨h0, hlt⟩ := h.ipb ip hip
    have hfile : inFile inp.nreg.toNat ip = true := inFile_iff.mpr ⟨h0, by omega⟩
    simp [hfile]

theorem LaunchInputs.Acceptable.programError_eq_none {inp : LaunchInputs} {w : RegWidth}
    (h : inp.Acceptable w) : programError inp.nreg.toNat w 0 inp.prog = none := by
  refine programError_eq_none_of_forall (fun r hr => ?_) 0
  obtain ⟨i, hwf, rfl⟩ := h.prog r hr
  rw [recordError_encode]
  exact instrError_eq_none_iff.mpr hwf

/-- The caller's requirements (R244) are what the launch checks: inputs that meet them are accepted. -/
theorem launch_of_acceptable {inp : LaunchInputs} {s : State} (h : inp.Acceptable s.cfg.regWidth) :
    launch inp s = acceptLaunch inp s := by
  have hinit : inp.init.all (inRange s.cfg.regWidth) = true := List.all_eq_true.mpr h.init_fit
  simp [launch, launchError, h.regCountError_eq_none, h.ipbBad_eq_false, hinit, h.programError_eq_none]

theorem acceptLaunch_ipbIdx_of_some {inp : LaunchInputs} {ip : Int} (h : inp.ipb = some ip) (s : State) :
    (acceptLaunch inp s).cfg.ipbIdx = ip.toNat := by
  simp [acceptLaunch, h]

/-! ## What one step does, in the direction of execution -/

theorem step_of_not_running {s : State} (h : s.status.state ≠ .running) : step s = .next s := by
  unfold step engineStep
  cases hs : s.status.state with
  | running => exact absurd hs h
  | _ => rfl

theorem step_of_outside {s : State} (hrun : s.status.state = .running) (hout : s.pcOutside = true) :
    step s = .next s.halt := by
  simp [step, engineStep, runningStep, hrun, hout]

theorem step_of_fetch {s : State} {r : Record} {i : Instr} (hrun : s.status.state = .running)
    (hin : s.pcOutside = false) (hbudget : s.stepBudget ≠ some s.status.steps) (hfetch : s.fetch = some r)
    (hdec : decode r = .ok i) : step s = runInstr i s := by
  simp [step, engineStep, runningStep, fetchAndRun, hrun, hin, hbudget, hfetch, hdec]

theorem runInstr_of_running {i : Instr} {s m u : State} (hm : mirrorIn s = some m) (hu : exec i m = .next u)
    (hrun : u.status.state = .running) : runInstr i s = finishStep u := by
  simp [runInstr, hm, hu, hrun]

theorem runInstr_of_ended {i : Instr} {s m u : State} (hm : mirrorIn s = some m) (hu : exec i m = .next u)
    (hend : u.status.state ≠ .running) : runInstr i s = .next u := by
  simp [runInstr, hm, hu, hend]

theorem finishStep_of_mirrorOut {s u : State} (h : mirrorOut s.countStep = some u) :
    finishStep s = .next (u.setPc (u.pc + 1)) := by
  simp [finishStep, h]

/-- R101: every instruction has the shape of `exec1` or of `exec2`. -/
theorem exec_shape (i : Instr) :
    (∃ f a, ∀ s, exec i s = exec1 f a i.dest s) ∨ (∃ f a b, ∀ s, exec i s = exec2 f a b i.dest s) := by
  cases i with
  | setr a => exact .inl ⟨id, .reg a, fun _ => rfl⟩
  | seti a => exact .inl ⟨id, .imm a, fun _ => rfl⟩
  | _ => exact .inr ⟨_, _, _, fun _ => rfl⟩

/-! ## Two machines that agree on all a program can act on -/

/-- The operation `f` cannot tell two agreeing machines apart: where it answers a next state for one, it answers one for
the other, and the two agree again. -/
def KeepsAgreement (f : State → Host.Outcome State Fault Refusal) : Prop :=
  ∀ ⦃s t s' : State⦄, s.ProgramAgrees t → f s = .next s' → ∃ t', f t = .next t' ∧ s'.ProgramAgrees t'

namespace State.ProgramAgrees

variable {s t : State}

theorem withRegs (h : s.ProgramAgrees t) (x : List Int) :
    ({ s with regs := x } : State).ProgramAgrees { t with regs := x } :=
  { h with regs := rfl }

theorem setPc (h : s.ProgramAgrees t) (v : Int) : (s.setPc v).ProgramAgrees (t.setPc v) :=
  { h with pc := rfl }

theorem countStep (h : s.ProgramAgrees t) : s.countStep.ProgramAgrees t.countStep :=
  { h with }

theorem halt (h : s.ProgramAgrees t) : s.halt.ProgramAgrees t.halt :=
  { h with state := rfl, final := congrArg some h.regs }

theorem overflow (h : s.ProgramAgrees t) : s.overflow.ProgramAgrees t.overflow :=
  { h with state := rfl }

theorem readReg_eq (h : s.ProgramAgrees t) (i : Int) : t.readReg i = s.readReg i := by
  simp [State.readReg, h.regs]

theorem hasReg_eq (h : s.ProgramAgrees t) (i : Int) : t.hasReg i = s.hasReg i := by
  simp [State.hasReg, h.regs]

theorem opval_eq (h : s.ProgramAgrees t) (a : Operand) : opval t a = opval s a := by
  cases a with
  | reg f => exact h.readReg_eq f
  | imm f => rfl

theorem fetch_eq (h : s.ProgramAgrees t) : t.fetch = s.fetch := by
  simp [State.fetch, h.pc, h.prog]

theorem pcOutside_eq (h : s.ProgramAgrees t) : t.pcOutside = s.pcOutside := by
  simp [State.pcOutside, h.pc, h.len]

theorem budget_unused (h : s.ProgramAgrees t) : t.stepBudget ≠ some t.status.steps := by
  simp [h.noBudget.2]

theorem exists_writeReg (h : s.ProgramAgrees t) {i v : Int} {s' : State} (hs : s.writeReg i v = some s') :
    ∃ t', t.writeReg i v = some t' ∧ s'.ProgramAgrees t' := by
  obtain ⟨hreg, rfl⟩ := writeReg_eq_some_iff.mp hs
  refine ⟨_, writeReg_eq_some_iff.mpr ⟨(h.hasReg_eq i).trans hreg, rfl⟩, ?_⟩
  rw [h.regs]
  exact h.withRegs _

theorem exists_mirrorIn (h : s.ProgramAgrees t) {s' : State} (hs : mirrorIn s = some s') :
    ∃ t', mirrorIn t = some t' ∧ s'.ProgramAgrees t' := by
  rcases mirrorIn_eq_some_iff.mp hs with ⟨hv, rfl⟩ | ⟨hv, hw⟩
  · exact ⟨t, mirrorIn_eq_some_iff.mpr (.inl ⟨h.bound.trans hv, rfl⟩), h⟩
  · obtain ⟨t', hw', h'⟩ := h.exists_writeReg hw
    rw [← h.boundIdx hv, ← h.pc] at hw'
    exact ⟨t', mirrorIn_eq_some_iff.mpr (.inr ⟨h.bound.trans hv, hw'⟩), h'⟩

theorem exists_mirrorOut (h : s.ProgramAgrees t) {s' : State} (hs : mirrorOut s = some s') :
    ∃ t', mirrorOut t = some t' ∧ s'.ProgramAgrees t' := by
  rcases mirrorOut_eq_some_iff.mp hs with ⟨hv, rfl⟩ | ⟨hv, v, hr, rfl⟩
  · exact ⟨t, mirrorOut_eq_some_iff.mpr (.inl ⟨h.bound.trans hv, rfl⟩), h⟩
  · have hr' : t.readReg t.cfg.ipbIdx = some v := by rw [h.boundIdx hv, h.readReg_eq, hr]
    exact ⟨_, mirrorOut_eq_some_iff.mpr (.inr ⟨h.bound.trans hv, v, hr', rfl⟩), h.setPc v⟩

end State.ProgramAgrees

theorem writeResult_keepsAgreement (c v : Int) : KeepsAgreement (fun s => writeResult s c v) := by
  intro s t s' h hs
  obtain ⟨hreg, hcases⟩ := writeResult_next hs
  refine ⟨_, writeResult_of_hasReg ((h.hasReg_eq c).trans hreg), ?_⟩
  rw [h.width, h.regs]
  rcases hcases with ⟨hfit, rfl⟩ | ⟨hover, rfl⟩
  · rw [if_pos hfit]
    exact h.withRegs _
  · rw [if_neg (by simp [hover])]
    exact h.overflow

theorem exec_keepsAgreement (i : Instr) : KeepsAgreement (exec i) := by
  intro s t s' h hs
  rcases exec_shape i with ⟨f, a, hshape⟩ | ⟨f, a, b, hshape⟩
  · obtain ⟨u, hu, hw⟩ := exec1_next ((hshape s).symm.trans hs)
    rw [hshape, exec1_of_opval ((h.opval_eq a).trans hu)]
    exact writeResult_keepsAgreement _ _ h hw
  · obtain ⟨u, v, hu, hv, hw⟩ := exec2_next ((hshape s).symm.trans hs)
    rw [hshape, exec2_of_opval ((h.opval_eq a).trans hu) ((h.opval_eq b).trans hv)]
    exact writeResult_keepsAgreement _ _ h hw

theorem finishStep_keepsAgreement : KeepsAgreement finishStep := by
  intro s t s' h hs
  obtain ⟨u, hu, rfl⟩ := finishStep_next hs
  obtain ⟨u', hu', h'⟩ := h.countStep.exists_mirrorOut hu
  refine ⟨_, finishStep_of_mirrorOut hu', ?_⟩
  rw [h'.pc]
  exact h'.setPc _

theorem runInstr_keepsAgreement (i : Instr) : KeepsAgreement (runInstr i) := by
  intro s t s' h hs
  obtain ⟨m, u, hm, hu, hrest⟩ := runInstr_next hs
  obtain ⟨m', hm', hmirror⟩ := h.exists_mirrorIn hm
  obtain ⟨u', hu', hexec⟩ := exec_keepsAgreement i hmirror hu
  rcases hrest with ⟨hrun, hfin⟩ | ⟨hend, rfl⟩
  · rw [runInstr_of_running hm' hu' (hexec.state.trans hrun)]
    exact finishStep_keepsAgreement hexec hfin
  · exact ⟨u', runInstr_of_ended hm' hu' (by rwa [hexec.state]), hexec⟩

theorem step_keepsAgreement : KeepsAgreement step := by
  intro s t s' h hs
  rcases step_cases hs with ⟨hend, rfl⟩ | ⟨hrun, hout, rfl⟩ | ⟨-, -, hused, -⟩ |
    ⟨hrun, hin, -, r, i, hfetch, hdec, hinstr⟩
  · exact ⟨t, step_of_not_running (by rwa [h.state]), h⟩
  · exact ⟨t.halt, step_of_outside (h.state.trans hrun) (h.pcOutside_eq.trans hout), h.halt⟩
  · rw [h.noBudget.1] at hused
    cases hused
  · rw [step_of_fetch (h.state.trans hrun) (h.pcOutside_eq.trans hin) h.budget_unused (h.fetch_eq.trans hfetch) hdec]
    exact runInstr_keepsAgreement i h hinstr

/-- A run of `k + 1` steps that gives a state takes a step and then runs `k`. -/
theorem runSteps_succ_next {k : Nat} {s s' : State} (h : runSteps (k + 1) s = .next s') :
    ∃ u, step s = .next u ∧ runSteps k u = .next s' := by
  unfold runSteps at h
  split at h
  · exact ⟨_, ‹_›, h⟩
  · cases h
  · cases h

theorem runSteps_succ_of_step {s u : State} (h : step s = .next u) (k : Nat) :
    runSteps (k + 1) s = runSteps k u := by
  simp [runSteps, h]

theorem runSteps_keepsAgreement (k : Nat) : KeepsAgreement (runSteps k) := by
  induction k with
  | zero =>
    rintro s t s' h ⟨⟩
    exact ⟨t, rfl, h⟩
  | succ k ih =>
    intro s t s' h hs
    obtain ⟨u, hu, hrest⟩ := runSteps_succ_next hs
    obtain ⟨u', hu', h'⟩ := step_keepsAgreement h hu
    rw [runSteps_succ_of_step hu']
    exact ih h' hrest

/-- Settles O29: no operation of a step tells two agreeing machines apart, and so by induction no run does. -/
theorem stepCounterIsInvisibleToPrograms : Obligations.StepCounterIsInvisibleToPrograms :=
  fun k _ _ _ h hs => runSteps_keepsAgreement k h hs

/-- Settles O30: an acceptable launch is accepted, and `acceptLaunch` sets each piece of state. -/
theorem launchSetsEveryPieceOfState : Obligations.LaunchSetsEveryPieceOfState := by
  intro inp s h
  have hbound : ∀ ip, inp.ipb = some ip → ((acceptLaunch inp s).cfg.ipbIdx : Int) = ip := by
    intro ip hip
    rw [acceptLaunch_ipbIdx_of_some hip]
    exact Int.toNat_of_nonneg (h.ipb ip hip).1
  have hnreg : (inp.nreg.toNat : Int) = inp.nreg := Int.toNat_of_nonneg (by linarith [h.nreg_pos])
  rw [launch_of_acceptable h]
  exact ⟨rfl, rfl, rfl, Option.isSome_iff_ne_none, hbound, hnreg, rfl, rfl, rfl, rfl, rfl, rfl, rfl, rfl, rfl⟩

end Sys2Proof.Machine

/-! PROOFS. What no step can change (R22, R29, R62): the size of the register file, the program store, `CFG`, the step
budget and the launch count. -/

namespace Sys2Proof.Machine

/-- `t` has all that only a launch sets as `s` has it: this is the frame of every operation of a step. -/
structure State.SameSetup (s t : State) : Prop where
  /-- No register is added or removed (R22). -/
  file : t.regs.length = s.regs.length
  /-- The program store is not written (R62). -/
  prog : t.prog = s.prog
  /-- `CFG` is not written (R29). -/
  cfg : t.cfg = s.cfg
  /-- The step budget stays. -/
  budget : t.stepBudget = s.stepBudget
  /-- The launch count stays. -/
  launches : t.launches = s.launches

namespace State.SameSetup

theorem refl (s : State) : s.SameSetup s := ⟨rfl, rfl, rfl, rfl, rfl⟩

theorem trans {s t u : State} (h : s.SameSetup t) (h' : t.SameSetup u) : s.SameSetup u :=
  ⟨h'.file.trans h.file, h'.prog.trans h.prog, h'.cfg.trans h.cfg, h'.budget.trans h.budget,
    h'.launches.trans h.launches⟩

/-- Replacing the value of a register is within the frame: the file keeps its length. -/
theorem setRegs (s : State) (k : Nat) (v : Int) : s.SameSetup { s with regs := s.regs.set k v } :=
  ⟨List.length_set, rfl, rfl, rfl, rfl⟩

theorem setPc (s : State) (v : Int) : s.SameSetup (s.setPc v) := ⟨rfl, rfl, rfl, rfl, rfl⟩

theorem countStep (s : State) : s.SameSetup s.countStep := ⟨rfl, rfl, rfl, rfl, rfl⟩

theorem overflow (s : State) : s.SameSetup s.overflow := ⟨rfl, rfl, rfl, rfl, rfl⟩

theorem halt (s : State) : s.SameSetup s.halt := ⟨rfl, rfl, rfl, rfl, rfl⟩

theorem exhaustBudget (s : State) : s.SameSetup s.exhaustBudget := ⟨rfl, rfl, rfl, rfl, rfl⟩

end State.SameSetup

theorem writeResult_sameSetup {s t : State} {c v : Int} (h : writeResult s c v = .next t) : s.SameSetup t := by
  obtain ⟨-, ⟨-, rfl⟩ | ⟨-, rfl⟩⟩ := writeResult_next h
  · exact .setRegs s _ _
  · exact .overflow s

/-- R101: an instruction ends in the one write of its result, and so keeps the frame of that write. -/
theorem exec_sameSetup {i : Instr} {s t : State} (h : exec i s = .next t) : s.SameSetup t := by
  rcases exec_shape i with ⟨f, a, hshape⟩ | ⟨f, a, b, hshape⟩
  · obtain ⟨u, -, hw⟩ := exec1_next ((hshape s).symm.trans h)
    exact writeResult_sameSetup hw
  · obtain ⟨u, v, -, -, hw⟩ := exec2_next ((hshape s).symm.trans h)
    exact writeResult_sameSetup hw

theorem mirrorIn_sameSetup {s m : State} (h : mirrorIn s = some m) : s.SameSetup m := by
  rcases mirrorIn_eq_some_iff.mp h with ⟨-, rfl⟩ | ⟨-, hw⟩
  · exact .refl m
  · obtain ⟨-, rfl⟩ := writeReg_eq_some_iff.mp hw
    exact .setRegs s _ _

theorem mirrorOut_sameSetup {s t : State} (h : mirrorOut s = some t) : s.SameSetup t := by
  rcases mirrorOut_eq_some_iff.mp h with ⟨-, rfl⟩ | ⟨-, v, -, rfl⟩
  · exact .refl t
  · exact .setPc s v

theorem finishStep_sameSetup {s t : State} (h : finishStep s = .next t) : s.SameSetup t := by
  obtain ⟨u, hu, rfl⟩ := finishStep_next h
  exact (State.SameSetup.countStep s).trans ((mirrorOut_sameSetup hu).trans (.setPc u _))

theorem runInstr_sameSetup {i : Instr} {s t : State} (h : runInstr i s = .next t) : s.SameSetup t := by
  obtain ⟨m, u, hm, hu, hrest⟩ := runInstr_next h
  have hsu : s.SameSetup u := (mirrorIn_sameSetup hm).trans (exec_sameSetup hu)
  rcases hrest with ⟨-, hfin⟩ | ⟨-, rfl⟩
  · exact hsu.trans (finishStep_sameSetup hfin)
  · exact hsu

theorem step_sameSetup {s t : State} (h : step s = .next t) : s.SameSetup t := by
  rcases step_cases h with ⟨-, rfl⟩ | ⟨-, -, rfl⟩ | ⟨-, -, -, rfl⟩ | ⟨-, -, -, r, i, -, -, hinstr⟩
  · exact .refl t
  · exact .halt s
  · exact .exhaustBudget s
  · exact runInstr_sameSetup hinstr

/-- Settles O28: each sub-step of a step keeps the frame, and so does the step. -/
theorem stepChangesNoProgramAndNoConfiguration : Obligations.StepChangesNoProgramAndNoConfiguration := by
  intro s t h
  obtain ⟨hfile, hprog, hcfg, hbudget, hlaunches⟩ := step_sameSetup h
  exact ⟨hfile, hprog, hcfg, hbudget, hlaunches⟩

end Sys2Proof.Machine

/-! PROOFS. The decoder and the encoder are inverse to each other below opcode 16 (R72, R79), and the text form gives the
same records (R80, R81). -/

namespace Sys2Proof.Machine

/-! ## Every record is one instruction or illegal -/

theorem encode_eq_of_fields {i : Instr} {r : Record} (hop : r.op.toNat = (opcode i).toNat)
    (hfields : i.fields = (r.a, r.b, r.c)) : encode i = r := by
  simp [encode, Instr.fieldA, Instr.fieldB, Instr.dest, hfields, ← BitVec.eq_of_toNat_eq hop]

/-- All that the decoder can answer: the instruction whose encoding the record is, or the error of an opcode past the
sixteen. -/
theorem decode_cases (r : Record) :
    (∃ i, decode r = .ok i ∧ encode i = r) ∨
    (16 ≤ r.op.toNat ∧ decode r = .error (.illegalOpcode r.op)) := by
  unfold decode
  split
  case h_17 =>
    have hle : 16 ≤ r.op.toNat := by simp only [imp_false] at *; omega
    exact .inr ⟨hle, rfl⟩
  all_goals exact .inl ⟨_, rfl, encode_eq_of_fields ‹_› rfl⟩

theorem decode_eq_ok_iff {r : Record} {i : Instr} : decode r = .ok i ↔ encode i = r := by
  constructor
  · intro hdec
    obtain ⟨j, hj, henc⟩ | ⟨-, herr⟩ := decode_cases r
    · obtain rfl : j = i := Except.ok.inj (hj.symm.trans hdec)
      exact henc
    · cases herr.symm.trans hdec
  · rintro rfl
    exact decode_encode i

theorem encode_op_lt (i : Instr) : (encode i).op.toNat < 16 := by
  cases i <;> simp [encode, opcode]

theorem encode_ne_of_le {r : Record} (h : 16 ≤ r.op.toNat) (i : Instr) : encode i ≠ r := by
  rintro rfl
  exact absurd (encode_op_lt i) (not_lt.mpr h)

theorem exists_decode_of_lt {r : Record} (h : r.op.toNat < 16) : ∃ i, decode r = .ok i := by
  obtain ⟨i, hdec, -⟩ | ⟨hle, -⟩ := decode_cases r
  · exact ⟨i, hdec⟩
  · exact absurd h (not_lt.mpr hle)

theorem decode_of_le {r : Record} (h : 16 ≤ r.op.toNat) : decode r = .error (.illegalOpcode r.op) := by
  obtain ⟨i, -, henc⟩ | ⟨-, herr⟩ := decode_cases r
  · exact absurd henc (encode_ne_of_le h i)
  · exact herr

/-- R78: the launch check of an illegal opcode comes first and names the field `op`. -/
theorem recordError_of_le {r : Record} (h : 16 ≤ r.op.toNat) (nreg : Nat) (w : RegWidth) :
    recordError nreg w r = some (.opcode, .op) := by
  simp [recordError, decode_of_le h]

/-- Settles O2: below 16 the decoder answers an instruction, and encoding is its inverse; from 16 on no instruction has
the opcode. -/
theorem decodingIsTotalAndExclusive : Obligations.DecodingIsTotalAndExclusive := by
  intro r
  refine ⟨fun hlt => ?_, fun hle => ⟨decode_of_le hle, encode_ne_of_le hle, recordError_of_le hle⟩⟩
  obtain ⟨i, hi⟩ := exists_decode_of_lt hlt
  refine ⟨i, hi, fun j => ?_⟩
  calc encode j = r ↔ decode r = .ok j := decode_eq_ok_iff.symm
    _ ↔ j = i := by rw [hi, Except.ok.injEq, eq_comm]

/-! ## The ignored operand -/

/-- Settles O4: the kind of `B` is `ignored` for both instructions, whose check then passes for every field (R76), and
neither meaning takes `B`. -/
theorem ignoredOperandHasNoEffect : Obligations.IgnoredOperandHasNoEffect :=
  fun _ _ _ _ _ _ _ => ⟨rfl, rfl, rfl, rfl⟩

/-! ## The text form -/

/-- R80: the table of mnemonics has no row that is not an instruction's. -/
theorem exists_instr_of_mem_mnemonicTable {row : String × BitVec 8} (h : row ∈ mnemonicTable) :
    ∃ i, (mnemonic i, opcode i) = row := by
  have table_eq : mnemonicTable =
      [Instr.addr 0 0 0, .addi 0 0 0, .mulr 0 0 0, .muli 0 0 0, .banr 0 0 0, .bani 0 0 0, .borr 0 0 0, .bori 0 0 0,
       .setr 0 0 0, .seti 0 0 0, .gtrr 0 0 0, .gtri 0 0 0, .gtir 0 0 0, .eqrr 0 0 0, .eqri 0 0 0, .eqir 0 0 0].map
        fun i => (mnemonic i, opcode i) := rfl
  obtain ⟨i, -, hi⟩ := List.mem_map.mp (table_eq ▸ h)
  exact ⟨i, hi⟩

@[simp] theorem opOfTag_mnemonic (i : Instr) : opOfTag (mnemonic i) = opcode i := by
  cases i <;> rfl

theorem opOfTag_of_no_mnemonic {tag : String} (h : ∀ i, mnemonic i ≠ tag) : opOfTag tag = 0xFF#8 := by
  have hnone : mnemonicTable.find? (fun row => row.1 == tag) = none := by
    refine List.find?_eq_none.mpr fun row hrow => ?_
    obtain ⟨i, rfl⟩ := exists_instr_of_mem_mnemonicTable hrow
    simpa using h i
  simp [opOfTag, hnone]

theorem recordError_of_no_mnemonic {ln : TextLine} (h : ∀ i, mnemonic i ≠ ln.tag) (nreg : Nat) (w : RegWidth) :
    recordError nreg w (recordOfLine ln) = some (.opcode, .op) := by
  have hop : (recordOfLine ln).op = 0xFF#8 := opOfTag_of_no_mnemonic h
  exact recordError_of_le (by rw [hop]; decide) nreg w

/-- Settles O5: the table gives each mnemonic its opcode and every other tag an illegal one; the integers and the
directive are copied. -/
theorem textBecomesRecords : Obligations.TextBecomesRecords := by
  refine ⟨fun i => ?_, fun _ => ⟨rfl, rfl, rfl⟩, fun _ nreg w h => recordError_of_no_mnemonic h nreg w,
    fun _ _ _ _ => ⟨rfl, rfl, rfl⟩⟩
  simp [recordOfLine, encode]

end Sys2Proof.Machine

/-! PROOFS. The one way every instruction ends (R101, R104), and what `Exec` reads (R100): Add and Multiply (R105 to
R108) and the register file alone. -/

namespace Sys2Proof.Machine

/-! ## The end of `Exec` -/

/-- `s` after an instruction with destination `c` and result `v` (R101): the result written, or the overflow of a finite
width (R104). `writeResult_of_names` ties it to the model. -/
def State.afterResult (s : State) (c v : Int) : State := if s.Fits v then s.withReg c v else s.overflowed

/-- The two cases of an outcome that ends in `State.afterResult`: the result fits, or it overflows. -/
theorem outcome_cases_of_afterResult {o : Host.Outcome State Fault Refusal} {s : State} {c v : Int}
    (h : o = .next (s.afterResult c v)) :
    (s.Fits v → o = .next (s.withReg c v)) ∧ (¬ s.Fits v → o = .next s.overflowed) := by
  subst h
  constructor
  · intro hfit
    rw [State.afterResult, if_pos hfit]
  · intro hover
    rw [State.afterResult, if_neg hover]

theorem writeResult_of_names {s : State} {c v : Int} (hc : s.Names c) :
    writeResult s c v = .next (s.afterResult c v) :=
  writeResult_of_hasReg (inFile_iff.mpr hc)

theorem exec1_of_names {f : Int → Int} {a : Operand} {c u : Int} {s : State} (ha : opval s a = some u)
    (hc : s.Names c) : exec1 f a c s = .next (s.afterResult c (f u)) := by
  rw [exec1_of_opval ha, writeResult_of_names hc]

theorem exec2_of_names {f : Int → Int → Int} {a b : Operand} {c u v : Int} {s : State} (ha : opval s a = some u)
    (hb : opval s b = some v) (hc : s.Names c) : exec2 f a b c s = .next (s.afterResult c (f u v)) := by
  rw [exec2_of_opval ha hb, writeResult_of_names hc]

theorem opval_reg_of_holds {s : State} {a x : Int} (h : s.Holds a x) : opval s (.reg a) = some x :=
  readReg_eq_some_iff.mpr h

/-! ## Add and Multiply -/

theorem exec_addr (a b c : Int) (s : State) :
    exec (.addr a b c) s = exec2 (fun u v => u + v) (.reg a) (.reg b) c s := rfl

theorem exec_addi (a b c : Int) (s : State) :
    exec (.addi a b c) s = exec2 (fun u v => u + v) (.reg a) (.imm b) c s := rfl

theorem exec_mulr (a b c : Int) (s : State) :
    exec (.mulr a b c) s = exec2 (fun u v => u * v) (.reg a) (.reg b) c s := rfl

theorem exec_muli (a b c : Int) (s : State) :
    exec (.muli a b c) s = exec2 (fun u v => u * v) (.reg a) (.imm b) c s := rfl

/-- The register form and the immediate form of one operation `f`: each writes its result where it fits, and overflows
where it does not. -/
theorem exec2_forms (f : Int → Int → Int) {s : State} {a b c x : Int} (ha : s.Holds a x) (hc : s.Names c) :
    (∀ y, s.Holds b y → s.Fits (f x y) → exec2 f (.reg a) (.reg b) c s = .next (s.withReg c (f x y))) ∧
    (∀ y, s.Holds b y → ¬ s.Fits (f x y) → exec2 f (.reg a) (.reg b) c s = .next s.overflowed) ∧
    (s.Fits (f x b) → exec2 f (.reg a) (.imm b) c s = .next (s.withReg c (f x b))) ∧
    (¬ s.Fits (f x b) → exec2 f (.reg a) (.imm b) c s = .next s.overflowed) := by
  have hreg : ∀ y, s.Holds b y → exec2 f (.reg a) (.reg b) c s = .next (s.afterResult c (f x y)) :=
    fun _ hy => exec2_of_names (opval_reg_of_holds ha) (opval_reg_of_holds hy) hc
  have himm : exec2 f (.reg a) (.imm b) c s = .next (s.afterResult c (f x b)) :=
    exec2_of_names (opval_reg_of_holds ha) rfl hc
  obtain ⟨himm_fit, himm_over⟩ := outcome_cases_of_afterResult himm
  exact ⟨fun y hy => (outcome_cases_of_afterResult (hreg y hy)).1,
    fun y hy => (outcome_cases_of_afterResult (hreg y hy)).2, himm_fit, himm_over⟩

/-- Settles O6: `addr` and `addi` are the two forms of the exact sum. -/
theorem addWritesTheExactSum : Obligations.AddWritesTheExactSum := by
  intro s a b c x ha hc
  rw [exec_addr, exec_addi]
  exact ⟨rfl, rfl, exec2_forms (fun u v => u + v) ha hc⟩

/-- Settles O7: `mulr` and `muli` are the two forms of the exact product. -/
theorem multiplyWritesTheExactProduct : Obligations.MultiplyWritesTheExactProduct := by
  intro s a b c x ha hc
  rw [exec_mulr, exec_muli]
  exact ⟨rfl, rfl, exec2_forms (fun u v => u * v) ha hc⟩

/-! ## What `Exec` reads -/

/-- The launch's check of an operand (R77), by its form. `exec_shape_of_wellFormed` ties it to `Instr.wellFormed`. -/
def Operand.fieldOk (nreg : Nat) (w : RegWidth) : Operand → Bool
  | .reg f => OperandKind.reg.fieldOk nreg w f
  | .imm f => OperandKind.imm.fieldOk nreg w f

theorem exists_readReg_of_inFile {x : List Int} {f : Int} (h : inFile x.length f = true) :
    ∃ u, ∀ s : State, s.regs = x → s.readReg f = some u := by
  obtain ⟨hnonneg, hlt⟩ := inFile_iff.mp h
  have hindex : f.toNat < x.length := by omega
  refine ⟨x[f.toNat], fun s hs => readReg_eq_some_iff.mpr ⟨hnonneg, ?_⟩⟩
  rw [hs, List.getElem?_eq_getElem hindex]

/-- R74: an operand that passes its check has one value in every machine with the register file `x`. -/
theorem Operand.exists_opval {x : List Int} {w : RegWidth} {a : Operand} (h : a.fieldOk x.length w = true) :
    ∃ u, ∀ s : State, s.regs = x → opval s a = some u := by
  cases a with
  | reg f => exact exists_readReg_of_inFile h
  | imm f => exact ⟨f, fun _ _ => rfl⟩

/-- `exec_shape` for a well-formed instruction: the operands it reads pass their checks, and so does its destination. -/
theorem exec_shape_of_wellFormed {nreg : Nat} {w : RegWidth} {i : Instr} (h : i.wellFormed nreg w = true) :
    inFile nreg i.dest = true ∧
    ((∃ f a, a.fieldOk nreg w = true ∧ ∀ s, exec i s = exec1 f a i.dest s) ∨
     (∃ f a b, a.fieldOk nreg w = true ∧ b.fieldOk nreg w = true ∧ ∀ s, exec i s = exec2 f a b i.dest s)) := by
  simp only [Instr.wellFormed, Bool.and_eq_true] at h
  obtain ⟨⟨hdest, ha⟩, hb⟩ := h
  refine ⟨hdest, ?_⟩
  cases i with
  | setr a => exact .inl ⟨id, .reg a, ha, fun _ => rfl⟩
  | seti a => exact .inl ⟨id, .imm a, ha, fun _ => rfl⟩
  | _ =>
    refine .inr ⟨_, _, _, ?_, ?_, fun _ => rfl⟩
    · exact ha
    · exact hb

/-- R100: the result of a well-formed instruction is a function of the register file. -/
theorem exists_result_of_wellFormed {x : List Int} {w : RegWidth} {i : Instr} (h : i.wellFormed x.length w = true) :
    ∃ v, ∀ s : State, s.regs = x → exec i s = .next (s.afterResult i.dest v) := by
  obtain ⟨hdest, hshape⟩ := exec_shape_of_wellFormed h
  have hnames : ∀ s : State, s.regs = x → s.Names i.dest := by
    rintro s rfl
    exact inFile_iff.mp hdest
  rcases hshape with ⟨f, a, ha, hexec⟩ | ⟨f, a, b, ha, hb, hexec⟩
  · obtain ⟨u, hu⟩ := a.exists_opval ha
    exact ⟨f u, fun s hs => (hexec s).trans (exec1_of_names (hu s hs) (hnames s hs))⟩
  · obtain ⟨u, hu⟩ := a.exists_opval ha
    obtain ⟨v, hv⟩ := b.exists_opval hb
    exact ⟨f u v, fun s hs => (hexec s).trans (exec2_of_names (hu s hs) (hv s hs) (hnames s hs))⟩

/-- Settles O15: the register file gives the operands, these the result, and the result is written or overflows. -/
theorem execIsAPureFunctionOfTheRegisterFile : Obligations.ExecIsAPureFunctionOfTheRegisterFile := by
  intro i x h
  obtain ⟨v, hv⟩ := exists_result_of_wellFormed h
  exact ⟨v, fun s hs => outcome_cases_of_afterResult (hv s hs)⟩

end Sys2Proof.Machine

/-! PROOFS. Assignment (R140, R141): what `setr` and `seti` write, and how the launch checks them (R77). -/

namespace Sys2Proof.Machine

/-! ## What the two instructions write -/

theorem exec_setr (a b c : Int) (s : State) : exec (.setr a b c) s = exec1 (fun u => u) (.reg a) c s := rfl

theorem exec_seti (a b c : Int) (s : State) : exec (.seti a b c) s = exec1 (fun u => u) (.imm a) c s := rfl

/-- R140: `setr` ends in the write of the value it reads. -/
theorem exec_setr_of_holds {s : State} {a c x : Int} (ha : s.Holds a x) (hc : s.Names c) (b : Int) :
    exec (.setr a b c) s = .next (s.afterResult c x) := by
  rw [exec_setr, exec1_of_names (opval_reg_of_holds ha) hc]

/-- R141: `seti` ends in the write of its field `A`. -/
theorem exec_seti_of_names {s : State} {c : Int} (hc : s.Names c) (a b : Int) :
    exec (.seti a b c) s = .next (s.afterResult c a) := by
  rw [exec_seti, exec1_of_names rfl hc]

/-! ## How the launch checks them -/

theorem names_of_holds {s : State} {i v : Int} (h : s.Holds i v) : s.Names i := by
  obtain ⟨hnonneg, hget⟩ := h
  have hindex : i.toNat < s.regs.length := (List.getElem?_eq_some_iff.mp hget).1
  exact ⟨hnonneg, by omega⟩

/-- With a destination in the file, `setr` is checked for its source register alone. -/
theorem recordError_setr {nreg : Nat} {c : Int} (hc : inFile nreg c = true) (w : RegWidth) (a b : Int) :
    recordError nreg w (encode (.setr a b c)) = if inFile nreg a = true then none else some (.srcRange, .a) := by
  cases ha : inFile nreg a <;>
    simp [instrError, Instr.kindA, Instr.kindB, Instr.fieldA, Instr.dest, Instr.fields, hc, ha]

/-- With a destination in the file, `seti` is checked for the range of its immediate alone. -/
theorem recordError_seti {nreg : Nat} {c : Int} (hc : inFile nreg c = true) (w : RegWidth) (a b : Int) :
    recordError nreg w (encode (.seti a b c)) = if inRange w a = true then none else some (.immRange, .a) := by
  cases ha : inRange w a <;>
    simp [instrError, Instr.kindA, Instr.kindB, Instr.fieldA, Instr.dest, Instr.fields, hc, ha]

/-- Settles O10: each instruction writes its one operand where that fits, and the launch checks that operand by its kind. -/
theorem assignCopiesOrLoads : Obligations.AssignCopiesOrLoads := by
  intro s a b c hc
  have hdest : inFile s.regs.length c = true := inFile_iff.mpr hc
  have hsetr : ∀ x, s.Holds a x → exec (.setr a b c) s = .next (s.afterResult c x) :=
    fun _ ha => exec_setr_of_holds ha hc b
  have hseti : exec (.seti a b c) s = .next (s.afterResult c a) := exec_seti_of_names hc a b
  have hsource : ∀ x, s.Holds a x → inFile s.regs.length a = true :=
    fun _ ha => inFile_iff.mpr (names_of_holds ha)
  rw [recordError_setr hdest, recordError_seti hdest]
  exact ⟨rfl, rfl, fun x ha => (outcome_cases_of_afterResult (hsetr x ha)).1,
    (outcome_cases_of_afterResult hseti).1, fun x ha => if_pos (hsource x ha), fun h => if_pos h,
    fun h => if_neg h⟩

end Sys2Proof.Machine

/-! PROOFS. Greater-than and Equal (R150 to R156): the truth value of a comparison is 0 or 1, which every legal width
holds, so that a comparison always completes. -/

namespace Sys2Proof.Machine

/-! ## The truth value of a comparison -/

theorem gtBit_eq_ite (u v : Int) : gtBit u v = if v < u then 1 else 0 := by
  simp [gtBit, b2i]

theorem eqBit_eq_ite (u v : Int) : eqBit u v = if u = v then 1 else 0 := by
  simp [eqBit, b2i]

/-- R8: a legal width holds 0 and 1, since it has more than one bit (R7). -/
theorem inRange_of_zero_le_of_le_one {w : RegWidth} {v : Int} (hw : w.legal = true) (hnonneg : 0 ≤ v) (hle : v ≤ 1) :
    inRange w v = true := by
  cases w with
  | unbounded => rfl
  | finite n =>
    have hlegal : 64 ≤ n := by simpa [RegWidth.legal] using hw
    have hpow : (2 : Int) ≤ 2 ^ (n - 1) := le_self_pow₀ one_le_two (by omega)
    simp only [inRange, Bool.and_eq_true, decide_eq_true_eq]
    constructor <;> omega

/-- A truth value is written, and never overflows. -/
theorem afterResult_ite_one_zero {s : State} (hw : s.cfg.regWidth.legal = true) (c : Int) (p : Prop) [Decidable p] :
    s.afterResult c (if p then 1 else 0) = s.withReg c (if p then 1 else 0) := by
  have hfits : s.Fits (if p then 1 else 0) :=
    inRange_of_zero_le_of_le_one hw (by split <;> decide) (by split <;> decide)
  exact if_pos hfits

/-! ## The three forms of a comparison -/

theorem exec_gtrr (a b c : Int) (s : State) : exec (.gtrr a b c) s = exec2 gtBit (.reg a) (.reg b) c s := rfl

theorem exec_gtri (a b c : Int) (s : State) : exec (.gtri a b c) s = exec2 gtBit (.reg a) (.imm b) c s := rfl

theorem exec_gtir (a b c : Int) (s : State) : exec (.gtir a b c) s = exec2 gtBit (.imm a) (.reg b) c s := rfl

theorem exec_eqrr (a b c : Int) (s : State) : exec (.eqrr a b c) s = exec2 eqBit (.reg a) (.reg b) c s := rfl

theorem exec_eqri (a b c : Int) (s : State) : exec (.eqri a b c) s = exec2 eqBit (.reg a) (.imm b) c s := rfl

theorem exec_eqir (a b c : Int) (s : State) : exec (.eqir a b c) s = exec2 eqBit (.imm a) (.reg b) c s := rfl

/-- The register-register, register-immediate and immediate-register forms of an operation `f` that answers the truth
value of a comparison `p`: each completes with that value in the destination. -/
theorem comparison_forms {f : Int → Int → Int} {p : Int → Int → Prop} [∀ u v, Decidable (p u v)]
    (hf : ∀ u v, f u v = if p u v then 1 else 0) {s : State} {c : Int} (hw : s.cfg.regWidth.legal = true)
    (hc : s.Names c) (a b : Int) :
    (∀ x y, s.Holds a x → s.Holds b y →
      exec2 f (.reg a) (.reg b) c s = .next (s.withReg c (if p x y then 1 else 0))) ∧
    (∀ x, s.Holds a x → exec2 f (.reg a) (.imm b) c s = .next (s.withReg c (if p x b then 1 else 0))) ∧
    (∀ y, s.Holds b y → exec2 f (.imm a) (.reg b) c s = .next (s.withReg c (if p a y then 1 else 0))) := by
  have hcompare : ∀ {l r : Operand} {u v : Int}, opval s l = some u → opval s r = some v →
      exec2 f l r c s = .next (s.withReg c (if p u v then 1 else 0)) := by
    intro l r u v hl hr
    rw [exec2_of_names hl hr hc, hf, afterResult_ite_one_zero hw]
  exact ⟨fun _ _ hx hy => hcompare (opval_reg_of_holds hx) (opval_reg_of_holds hy),
    fun _ hx => hcompare (opval_reg_of_holds hx) rfl, fun _ hy => hcompare rfl (opval_reg_of_holds hy)⟩

/-- Settles O11: `gtrr`, `gtri` and `gtir` are the three forms of the signed strict order. -/
theorem greaterThanWritesZeroOrOne : Obligations.GreaterThanWritesZeroOrOne := by
  intro s a b c hw hc
  rw [exec_gtrr, exec_gtri, exec_gtir]
  exact ⟨rfl, rfl, rfl, comparison_forms gtBit_eq_ite hw hc a b⟩

/-- Settles O12: `eqrr`, `eqri` and `eqir` are the three forms of the equality of integers. -/
theorem equalWritesZeroOrOne : Obligations.EqualWritesZeroOrOne := by
  intro s a b c hw hc
  rw [exec_eqrr, exec_eqri, exec_eqir]
  exact ⟨rfl, rfl, rfl, comparison_forms eqBit_eq_ite hw hc a b⟩

end Sys2Proof.Machine

/-! PROOFS. What one step of the engine can do to a running machine (R181): the normal end (R182), and the mirror of
`pc` into the bound register (R184). -/

namespace Sys2Proof.Machine

/-! ## Registers -/

theorem holds_withReg_same {s : State} {i : Int} (h : s.Names i) (v : Int) : (s.withReg i v).Holds i v := by
  obtain ⟨hnonneg, hlt⟩ := h
  have hindex : i.toNat < s.regs.length := by omega
  exact ⟨hnonneg, List.getElem?_set_self hindex⟩

theorem holds_withReg_of_ne {s : State} {i j x : Int} (hi : 0 ≤ i) (hne : j ≠ i) (h : s.Holds j x) (v : Int) :
    (s.withReg i v).Holds j x := by
  obtain ⟨hnonneg, hget⟩ := h
  have hindex : i.toNat ≠ j.toNat := by omega
  exact ⟨hnonneg, (List.getElem?_set_ne hindex).trans hget⟩

@[simp] theorem withReg_regs_length (s : State) (i v : Int) : (s.withReg i v).regs.length = s.regs.length :=
  List.length_set

/-- A second write of the same register hides the first. -/
@[simp] theorem withReg_withReg (s : State) (i u v : Int) : (s.withReg i u).withReg i v = s.withReg i v := by
  simp [State.withReg]

/-! ## The sub-steps -/

theorem pcOutside_iff {s : State} : s.pcOutside = true ↔ s.pc < 0 ∨ (s.cfg.len : Int) ≤ s.pc := by
  simp [State.pcOutside]

@[simp] theorem mirrored_status (s : State) : s.mirrored.status = s.status := by unfold State.mirrored; split <;> rfl

theorem mirrored_of_unbound {s : State} (h : s.cfg.ipbValid = false) : s.mirrored = s := by
  simp [State.mirrored, h]

/-- `State.mirrored` is what step (c) answers. -/
theorem eq_mirrored_of_mirrorIn {s m : State} (h : mirrorIn s = some m) : m = s.mirrored := by
  rcases mirrorIn_eq_some_iff.mp h with ⟨hv, rfl⟩ | ⟨hv, hw⟩
  · exact (mirrored_of_unbound hv).symm
  · obtain ⟨-, rfl⟩ := writeReg_eq_some_iff.mp hw
    exact (if_pos hv).symm

theorem mirrorIn_of_binds {s : State} {ip : Nat} (h : s.Binds ip) : mirrorIn s = some (s.withReg ip s.pc) := by
  obtain ⟨hvalid, rfl, hlt⟩ := h
  refine mirrorIn_eq_some_iff.mpr (.inr ⟨hvalid, writeReg_eq_some_iff.mpr ⟨?_, rfl⟩⟩)
  exact inFile_iff.mpr ⟨Int.natCast_nonneg _, by omega⟩

/-- R101: an instruction that answers a next state ends in the one write of its result. -/
theorem exists_writeResult_of_exec {i : Instr} {s t : State} (h : exec i s = .next t) :
    ∃ v, writeResult s i.dest v = .next t := by
  rcases exec_shape i with ⟨f, a, hshape⟩ | ⟨f, a, b, hshape⟩
  · obtain ⟨u, -, hw⟩ := exec1_next ((hshape s).symm.trans h)
    exact ⟨_, hw⟩
  · obtain ⟨u, v, -, -, hw⟩ := exec2_next ((hshape s).symm.trans h)
    exact ⟨_, hw⟩

/-- All that an instruction can do: write its destination (R101), or overflow (R104). -/
theorem exec_next_cases {i : Instr} {s t : State} (h : exec i s = .next t) :
    s.Names i.dest ∧ ((∃ v, t = s.withReg i.dest v) ∨ t = s.overflow) := by
  obtain ⟨v, hw⟩ := exists_writeResult_of_exec h
  obtain ⟨hreg, ⟨-, ht⟩ | ⟨-, ht⟩⟩ := writeResult_next hw
  · exact ⟨inFile_iff.mp hreg, .inl ⟨v, ht⟩⟩
  · exact ⟨inFile_iff.mp hreg, .inr ht⟩

/-- The end of a step counts the instruction and moves `pc`, and nothing else. -/
theorem exists_eq_of_finishStep {s t : State} (h : finishStep s = .next t) : ∃ p, t = s.countStep.setPc p := by
  obtain ⟨u, hu, rfl⟩ := finishStep_next h
  rcases mirrorOut_eq_some_iff.mp hu with ⟨-, rfl⟩ | ⟨-, v, -, rfl⟩ <;> exact ⟨_, rfl⟩

/-- All that a running machine can do with a fetched instruction: complete it, or overflow (R216). -/
theorem runInstr_next_cases {i : Instr} {s t : State} (hrun : s.status.state = .running)
    (h : runInstr i s = .next t) :
    s.mirrored.Names i.dest ∧
      ((∃ v p, t = (s.mirrored.withReg i.dest v).countStep.setPc p) ∨ t = s.mirrored.overflow) := by
  obtain ⟨m, u, hm, hu, hrest⟩ := runInstr_next h
  obtain rfl := eq_mirrored_of_mirrorIn hm
  obtain ⟨hdest, ⟨v, rfl⟩ | rfl⟩ := exec_next_cases hu
  · rcases hrest with ⟨-, hfin⟩ | ⟨hend, -⟩
    · obtain ⟨p, rfl⟩ := exists_eq_of_finishStep hfin
      exact ⟨hdest, .inl ⟨v, p, rfl⟩⟩
    · exact absurd ((congrArg Status.state (mirrored_status s)).trans hrun) hend
  · rcases hrest with ⟨hgoes, -⟩ | ⟨-, rfl⟩
    · cases hgoes
    · exact ⟨hdest, .inr rfl⟩

theorem runInstr_not_halted {i : Instr} {s t : State} (hrun : s.status.state = .running)
    (h : runInstr i s = .next t) : t.status.state ≠ .halted := by
  obtain ⟨-, ⟨v, p, rfl⟩ | rfl⟩ := runInstr_next_cases hrun h
  · have hstate : ((s.mirrored.withReg i.dest v).countStep.setPc p).status.state = .running :=
      (congrArg Status.state (mirrored_status s)).trans hrun
    intro hhalted
    cases hstate.symm.trans hhalted
  · simp

/-- Settles O19: outside the program the halt check ends the run; inside, the step is the budget's end or a fetched
instruction, and neither halts. -/
theorem leavingTheProgramIsTheOnlyNormalEnd : Obligations.LeavingTheProgramIsTheOnlyNormalEnd := by
  intro s hrun
  refine ⟨fun hout => step_of_outside hrun (pcOutside_iff.mpr hout), fun hnonneg hlt t h => ?_⟩
  rcases step_cases h with ⟨hend, -⟩ | ⟨-, hout, -⟩ | ⟨-, -, -, rfl⟩ | ⟨-, -, -, r, i, -, -, hinstr⟩
  · exact absurd hrun hend
  · have := pcOutside_iff.mp hout
    omega
  · simp
  · exact runInstr_not_halted hrun hinstr

/-! ## An instruction reads its own address -/

theorem step_of_canRun {s : State} (h : s.CanRun) : step s = fetchAndRun s := by
  obtain ⟨hrun, hnonneg, hlt, hbudget⟩ := h
  have hin : s.pcOutside = false := by simp [State.pcOutside, hnonneg, hlt]
  simp [step, engineStep, runningStep, hrun, hin, hbudget]

theorem step_of_fetches {s : State} {i : Instr} (h : s.CanRun) (hi : s.Fetches i) : step s = runInstr i s := by
  obtain ⟨r, hnonneg, hget, hdec⟩ := hi
  have hfetch : s.fetch = some r := (if_pos hnonneg).trans hget
  rw [step_of_canRun h]
  simp [fetchAndRun, hfetch, hdec]

/-- Steps (b) to (f) see a machine only by what it fetches and by its state after the mirror. -/
theorem fetchAndRun_congr {s t : State} (hfetch : s.fetch = t.fetch) (hmirror : mirrorIn s = mirrorIn t) :
    fetchAndRun s = fetchAndRun t := by
  simp only [fetchAndRun, runInstr, hfetch, hmirror]

/-- R184: the mirror overwrites the value an earlier instruction left in the bound register. -/
theorem mirrorIn_withReg_of_binds {s : State} {ip : Nat} (h : s.Binds ip) (v : Int) :
    mirrorIn (s.withReg ip v) = mirrorIn s := by
  obtain ⟨hvalid, hidx, hlt⟩ := h
  have hbinds : (s.withReg ip v).Binds ip := ⟨hvalid, hidx, by simpa using hlt⟩
  calc mirrorIn (s.withReg ip v)
      = some ((s.withReg ip v).withReg ip s.pc) := mirrorIn_of_binds hbinds
    _ = some (s.withReg ip s.pc) := by rw [withReg_withReg]
    _ = mirrorIn s := (mirrorIn_of_binds ⟨hvalid, hidx, hlt⟩).symm

theorem step_withReg_of_binds {s : State} {ip : Nat} (hcan : s.CanRun) (h : s.Binds ip) (v : Int) :
    step (s.withReg ip v) = step s := by
  have hcan' : (s.withReg ip v).CanRun := hcan
  rw [step_of_canRun hcan', step_of_canRun hcan]
  exact fetchAndRun_congr rfl (mirrorIn_withReg_of_binds h v)

/-- The end of a step with a bound register: `pc` is one past the bound register's value (R186, R187). -/
theorem finishStep_of_bound {s : State} {v : Int} (hvalid : s.cfg.ipbValid = true) (h : s.Holds s.cfg.ipbIdx v) :
    finishStep s = .next (s.countStep.setPc (v + 1)) :=
  finishStep_of_mirrorOut
    (mirrorOut_eq_some_iff.mpr (.inr ⟨hvalid, v, readReg_eq_some_iff.mpr h, rfl⟩))

/-- R184: `setr ip b k` copies the instruction's own index to `x[k]`, and the run goes on after it. -/
theorem step_setr_of_binds {s : State} {ip : Nat} {b k : Int} (hcan : s.CanRun) (h : s.Binds ip)
    (hi : s.Fetches (.setr ip b k)) (hfits : s.Fits s.pc) (hk : s.Names k) (hne : k ≠ ip) :
    step s = .next (((s.withReg ip s.pc).withReg k s.pc).countStep.setPc (s.pc + 1)) ∧
      ((s.withReg ip s.pc).withReg k s.pc).Holds k s.pc ∧ ((s.withReg ip s.pc).withReg k s.pc).Holds ip s.pc := by
  obtain ⟨hvalid, hidx, hlt⟩ := h
  have hip : (s.withReg ip s.pc).Holds ip s.pc := holds_withReg_same ⟨Int.natCast_nonneg _, by omega⟩ s.pc
  have hdest : (s.withReg ip s.pc).Names k := by simpa [State.Names] using hk
  have hexec : exec (.setr ip b k) (s.withReg ip s.pc) = .next ((s.withReg ip s.pc).withReg k s.pc) :=
    (outcome_cases_of_afterResult (exec_setr_of_holds hip hdest b)).1 hfits
  have hip' : ((s.withReg ip s.pc).withReg k s.pc).Holds ip s.pc := holds_withReg_of_ne hk.1 hne.symm hip _
  refine ⟨?_, holds_withReg_same hdest _, hip'⟩
  rw [step_of_fetches hcan hi, runInstr_of_running (mirrorIn_of_binds ⟨hvalid, hidx, hlt⟩) hexec hcan.1]
  subst hidx
  exact finishStep_of_bound hvalid hip'

/-- With no bound register, an executed instruction leaves every register but its destination as it was. -/
theorem step_keeps_holds_of_unbound {s t : State} {i : Instr} {j v : Int} (hcan : s.CanRun) (hi : s.Fetches i)
    (hvalid : s.cfg.ipbValid = false) (h : step s = .next t) (hne : j ≠ i.dest) (hj : s.Holds j v) :
    t.Holds j v := by
  rw [step_of_fetches hcan hi] at h
  obtain ⟨hdest, hcases⟩ := runInstr_next_cases hcan.1 h
  rw [mirrored_of_unbound hvalid] at hdest hcases
  rcases hcases with ⟨u, p, rfl⟩ | rfl
  · exact holds_withReg_of_ne hdest.1 hne hj u
  · exact hj

/-- Settles O25: the mirror hides what the bound register held, `setr` copies what the mirror wrote, and with no bound
register the destination's write is the only one. -/
theorem instructionReadsItsOwnAddress : Obligations.InstructionReadsItsOwnAddress := by
  refine ⟨fun s ip hcan hbinds => ⟨step_withReg_of_binds hcan hbinds, fun b k hi hfits hk hne => ?_⟩,
    fun _ _ _ hcan hi hvalid h _ _ => step_keeps_holds_of_unbound hcan hi hvalid h⟩
  obtain ⟨hstep, hholdsk, hholdsip⟩ := step_setr_of_binds hcan hbinds hi hfits hk hne
  exact ⟨_, hstep, hholdsk, hholdsip, rfl⟩

end Sys2Proof.Machine

/-! PROOFS. Full determinism (R196): the values the spec leaves unspecified (R29, R30) and the launch count make no
difference to a run or to its result. -/

namespace Sys2Proof.Machine

/-! ## The fields that neither a run nor its result reads -/

/-- `s` with the fields that nothing reads taken from `r`: `CFG.IPB_IDX` where `s` binds no register (R29),
`STATUS.ERR_INDEX` where `s` shows no error (R30), and the launch count.
`acceptLaunch_eq_withUnread` ties it to the launch. -/
def State.withUnread (s r : State) : State :=
  { s with
    cfg := { s.cfg with ipbIdx := bif s.cfg.ipbValid then s.cfg.ipbIdx else r.cfg.ipbIdx }
    status := { s.status with
      errIndex := match s.status.state with
        | .loadError | .overflow => s.status.errIndex
        | .running | .halted | .budgetExceeded => r.status.errIndex }
    launches := r.launches }

@[simp] theorem withUnread_regWidth (s r : State) : (s.withUnread r).cfg.regWidth = s.cfg.regWidth := rfl
@[simp] theorem withUnread_state (s r : State) : (s.withUnread r).status.state = s.status.state := rfl
@[simp] theorem withUnread_steps (s r : State) : (s.withUnread r).status.steps = s.status.steps := rfl
@[simp] theorem withUnread_stepBudget (s r : State) : (s.withUnread r).stepBudget = s.stepBudget := rfl
@[simp] theorem withUnread_fetch (s r : State) : (s.withUnread r).fetch = s.fetch := rfl
@[simp] theorem withUnread_pcOutside (s r : State) : (s.withUnread r).pcOutside = s.pcOutside := rfl
@[simp] theorem withUnread_readReg (s r : State) (i : Int) : (s.withUnread r).readReg i = s.readReg i := rfl

@[simp] theorem withUnread_boundReg (s r : State) : (s.withUnread r).boundReg = s.boundReg := by
  cases h : s.cfg.ipbValid <;> simp [State.boundReg, State.withUnread, h]

@[simp] theorem withUnread_opval (s r : State) (a : Operand) : opval (s.withUnread r) a = opval s a := by
  cases a <;> rfl

theorem withUnread_countStep (s r : State) : (s.withUnread r).countStep = s.countStep.withUnread r := rfl

theorem withUnread_overflow (s r : State) : (s.withUnread r).overflow = s.overflow.withUnread r := rfl

theorem withUnread_halt {s : State} (h : s.status.state = .running) (r : State) :
    (s.withUnread r).halt = s.halt.withUnread r := by
  simp [State.withUnread, State.halt, h]

theorem withUnread_exhaustBudget {s : State} (h : s.status.state = .running) (r : State) :
    (s.withUnread r).exhaustBudget = s.exhaustBudget.withUnread r := by
  simp [State.withUnread, State.exhaustBudget, h]

theorem withUnread_writeReg (s r : State) (i v : Int) :
    (s.withUnread r).writeReg i v = (s.writeReg i v).map (·.withUnread r) := by
  have hreg : (s.withUnread r).hasReg i = s.hasReg i := rfl
  unfold State.writeReg
  rw [hreg]
  split <;> rfl

/-! ## A run carries the unread fields along -/

/-- The outcome with `f` applied to its next state. -/
def mapNext (f : State → State) : Host.Outcome State Fault Refusal → Host.Outcome State Fault Refusal
  | .next s => .next (f s)
  | .fault e => .fault e
  | .refused e => .refused e

@[simp] theorem mapNext_next (f : State → State) (s : State) : mapNext f (.next s) = .next (f s) := rfl

@[simp] theorem mapNext_fault (f : State → State) (e : Fault) : mapNext f (.fault e) = .fault e := rfl

/-- The operation `f` neither reads nor writes the unread fields: whatever they hold, it answers the same outcome, with
these fields carried along. -/
def CarriesUnread (f : State → Host.Outcome State Fault Refusal) : Prop :=
  ∀ s r : State, f (s.withUnread r) = mapNext (·.withUnread r) (f s)

theorem mirrorIn_withUnread (s r : State) : mirrorIn (s.withUnread r) = (mirrorIn s).map (·.withUnread r) := by
  unfold mirrorIn
  rw [withUnread_boundReg]
  cases s.boundReg with
  | none => rfl
  | some ip => exact withUnread_writeReg s r ip s.pc

theorem mirrorOut_withUnread (s r : State) : mirrorOut (s.withUnread r) = (mirrorOut s).map (·.withUnread r) := by
  unfold mirrorOut
  rw [withUnread_boundReg]
  cases s.boundReg with
  | none => rfl
  | some ip =>
    simp only [withUnread_readReg]
    cases s.readReg ip <;> rfl

theorem writeResult_carriesUnread (c v : Int) : CarriesUnread (fun s => writeResult s c v) := by
  intro s r
  simp only [writeResult, withUnread_writeReg, withUnread_regWidth, withUnread_overflow]
  cases s.writeReg c v with
  | none => rfl
  | some t =>
    by_cases hfits : inRange s.cfg.regWidth v = true <;> simp [hfits]

theorem exec1_carriesUnread (f : Int → Int) (a : Operand) (c : Int) : CarriesUnread (exec1 f a c) := by
  intro s r
  simp only [exec1, withUnread_opval]
  cases opval s a with
  | none => rfl
  | some u => exact writeResult_carriesUnread c (f u) s r

theorem exec2_carriesUnread (f : Int → Int → Int) (a b : Operand) (c : Int) : CarriesUnread (exec2 f a b c) := by
  intro s r
  simp only [exec2, withUnread_opval]
  cases opval s a with
  | none => rfl
  | some u =>
    cases opval s b with
    | none => rfl
    | some v => exact writeResult_carriesUnread c (f u v) s r

theorem exec_carriesUnread (i : Instr) : CarriesUnread (exec i) := by
  intro s r
  rcases exec_shape i with ⟨f, a, hshape⟩ | ⟨f, a, b, hshape⟩
  · rw [hshape, hshape]
    exact exec1_carriesUnread f a i.dest s r
  · rw [hshape, hshape]
    exact exec2_carriesUnread f a b i.dest s r

theorem finishStep_carriesUnread : CarriesUnread finishStep := by
  intro s r
  simp only [finishStep, withUnread_countStep, mirrorOut_withUnread]
  cases mirrorOut s.countStep <;> rfl

theorem runInstr_carriesUnread (i : Instr) : CarriesUnread (runInstr i) := by
  intro s r
  simp only [runInstr, mirrorIn_withUnread]
  cases mirrorIn s with
  | none => rfl
  | some m =>
    simp only [Option.map_some, exec_carriesUnread i m r]
    cases exec i m with
    | next t =>
      by_cases hrun : t.status.state = .running
      · simpa [hrun] using finishStep_carriesUnread t r
      · simp [hrun]
    | fault e => rfl
    | refused e => rfl

theorem fetchAndRun_carriesUnread : CarriesUnread fetchAndRun := by
  intro s r
  simp only [fetchAndRun, withUnread_fetch]
  cases s.fetch with
  | none => rfl
  | some q =>
    cases hdec : decode q with
    | error e => simp [hdec]
    | ok i => simpa [hdec] using runInstr_carriesUnread i s r

theorem step_of_running {s : State} (h : s.status.state = .running) : step s = runningStep s := by
  simp [step, engineStep, h]

theorem step_carriesUnread : CarriesUnread step := by
  intro s r
  by_cases hrun : s.status.state = .running
  · have hrun' : (s.withUnread r).status.state = .running := hrun
    rw [step_of_running hrun', step_of_running hrun]
    simp only [runningStep, withUnread_pcOutside, withUnread_stepBudget, withUnread_steps, withUnread_halt hrun,
      withUnread_exhaustBudget hrun]
    split_ifs
    · rfl
    · rfl
    · exact fetchAndRun_carriesUnread s r
  · have hend : (s.withUnread r).status.state ≠ .running := hrun
    rw [step_of_not_running hend, step_of_not_running hrun, mapNext_next]

theorem runSteps_carriesUnread (k : Nat) : CarriesUnread (runSteps k) := by
  induction k with
  | zero => exact fun _ _ => rfl
  | succ k ih =>
    intro s r
    simp only [runSteps, step_carriesUnread s r]
    cases step s with
    | next t => exact ih t r
    | fault e => rfl
    | refused e => rfl

/-! ## The outputs do not show them -/

@[simp] theorem withUnread_stepsPort (s r : State) : (s.withUnread r).stepsPort = s.stepsPort := rfl

@[simp] theorem withUnread_outcomePort (s r : State) : (s.withUnread r).outcomePort = s.outcomePort := rfl

@[simp] theorem withUnread_finalRegsPort (s r : State) : (s.withUnread r).finalRegsPort = s.finalRegsPort := rfl

/-- `ERR` shows `ERR_INDEX` in the two error outcomes alone. -/
@[simp] theorem withUnread_errPort (s r : State) : (s.withUnread r).errPort = s.errPort := by
  cases h : s.status.state <;> simp [State.errPort, State.withUnread, h]

@[simp] theorem withUnread_result (s r : State) : (s.withUnread r).result = s.result := by
  simp [State.result]

/-! ## Two launches of the same inputs -/

/-- Two accepted launches of the same inputs differ in the unread fields alone. -/
theorem acceptLaunch_eq_withUnread (inp : LaunchInputs) {s s' : State} (hw : s.cfg.regWidth = s'.cfg.regWidth) :
    acceptLaunch inp s' = (acceptLaunch inp s).withUnread (acceptLaunch inp s') := by
  cases hipb : inp.ipb <;> simp [acceptLaunch, State.withUnread, hw, hipb]

theorem runSteps_of_not_running {s : State} (h : s.status.state ≠ .running) (k : Nat) : runSteps k s = .next s := by
  induction k with
  | zero => rfl
  | succ k ih => rw [runSteps_succ_of_step (step_of_not_running h), ih]

/-- A refused launch shows its error and 0 steps, whatever number of steps follows. -/
theorem runSteps_refuseLaunch (k : Nat) (code : ErrCode) (index : Int) (field : ErrField) (s : State) :
    runSteps k (refuseLaunch code index field s) = .next (refuseLaunch code index field s) :=
  runSteps_of_not_running (by simp) k

/-- Settles O38: the launch checks read the inputs and the width alone. Accepted, the two machines differ in fields that
a run carries along unread; refused, they show the same error. -/
theorem reRunningGivesTheSameResult : Obligations.ReRunningGivesTheSameResult := by
  intro inp s s' t k hw h
  rcases launch_cases inp s with ⟨hpass, hl⟩ | ⟨code, index, field, herr, hl⟩
  · have hl' : launch inp s' = (launch inp s).withUnread (acceptLaunch inp s') := by
      rw [hl, ← acceptLaunch_eq_withUnread inp hw, launch, ← hw, hpass]
    refine ⟨t.withUnread (acceptLaunch inp s'), ?_, withUnread_result _ _, withUnread_stepsPort _ _⟩
    rw [hl', runSteps_carriesUnread, h, mapNext_next]
  · have hl' : launch inp s' = refuseLaunch code index field s' := by
      rw [launch, ← hw, herr]
    rw [hl, runSteps_refuseLaunch] at h
    cases h
    rw [hl']
    exact ⟨_, runSteps_refuseLaunch k code index field s', rfl, rfl⟩

end Sys2Proof.Machine

/-! PROOFS. The step budget (R220): a step reads it in the budget test alone. -/

namespace Sys2Proof.Machine

/-- `s` with the step budget `b`, and nothing else changed. -/
def State.withBudget (b : Option Nat) (s : State) : State := { s with stepBudget := b }

@[simp] theorem withBudget_pcOutside (b : Option Nat) (s : State) : (s.withBudget b).pcOutside = s.pcOutside := rfl
@[simp] theorem withBudget_fetch (b : Option Nat) (s : State) : (s.withBudget b).fetch = s.fetch := rfl
@[simp] theorem withBudget_status (b : Option Nat) (s : State) : (s.withBudget b).status = s.status := rfl
@[simp] theorem withBudget_stepBudget (b : Option Nat) (s : State) : (s.withBudget b).stepBudget = b := rfl

@[simp] theorem withBudget_opval (b : Option Nat) (s : State) (a : Operand) :
    opval (s.withBudget b) a = opval s a := by
  cases a <;> rfl

/-- The operation `f` neither reads nor writes the step budget: whatever it is, `f` answers the same outcome, with the
budget carried along. -/
def CarriesBudget (f : State → Host.Outcome State Fault Refusal) : Prop :=
  ∀ (b : Option Nat) (s : State), f (s.withBudget b) = mapNext (State.withBudget b) (f s)

theorem writeReg_withBudget (b : Option Nat) (s : State) (i v : Int) :
    (s.withBudget b).writeReg i v = (s.writeReg i v).map (State.withBudget b) := by
  have hreg : (s.withBudget b).hasReg i = s.hasReg i := rfl
  simp only [State.writeReg, hreg]
  split <;> rfl

theorem mirrorIn_withBudget (b : Option Nat) (s : State) :
    mirrorIn (s.withBudget b) = (mirrorIn s).map (State.withBudget b) := by
  have hbound : (s.withBudget b).boundReg = s.boundReg := rfl
  rw [mirrorIn, mirrorIn, hbound]
  cases s.boundReg with
  | none => rfl
  | some ip => exact writeReg_withBudget b s ip s.pc

theorem mirrorOut_withBudget (b : Option Nat) (s : State) :
    mirrorOut (s.withBudget b) = (mirrorOut s).map (State.withBudget b) := by
  have hbound : (s.withBudget b).boundReg = s.boundReg := rfl
  have hread : ∀ i, (s.withBudget b).readReg i = s.readReg i := fun _ => rfl
  rw [mirrorOut, mirrorOut, hbound]
  cases s.boundReg with
  | none => rfl
  | some ip =>
    simp only [hread]
    cases s.readReg ip <;> rfl

theorem writeResult_carriesBudget (c v : Int) : CarriesBudget (fun s => writeResult s c v) := by
  intro b s
  have hwidth : (s.withBudget b).cfg.regWidth = s.cfg.regWidth := rfl
  have hover : (s.withBudget b).overflow = s.overflow.withBudget b := rfl
  simp only [writeResult, writeReg_withBudget, hwidth, hover]
  cases s.writeReg c v with
  | none => rfl
  | some t => cases hfits : inRange s.cfg.regWidth v <;> simp

/-- R101: an instruction reads its operands and writes its result, and neither looks at the budget. -/
theorem exec_carriesBudget (i : Instr) : CarriesBudget (exec i) := by
  intro b s
  rcases exec_shape i with ⟨f, x, hshape⟩ | ⟨f, x, y, hshape⟩
  · simp only [hshape, exec1, withBudget_opval]
    cases opval s x with
    | none => rfl
    | some u => exact writeResult_carriesBudget i.dest (f u) b s
  · simp only [hshape, exec2, withBudget_opval]
    cases opval s x with
    | none => rfl
    | some u =>
      cases opval s y with
      | none => rfl
      | some v => exact writeResult_carriesBudget i.dest (f u v) b s

theorem finishStep_carriesBudget : CarriesBudget finishStep := by
  intro b s
  have hcount : (s.withBudget b).countStep = s.countStep.withBudget b := rfl
  simp only [finishStep, hcount, mirrorOut_withBudget]
  cases mirrorOut s.countStep <;> rfl

theorem runInstr_carriesBudget (i : Instr) : CarriesBudget (runInstr i) := by
  intro b s
  simp only [runInstr, mirrorIn_withBudget]
  cases mirrorIn s with
  | none => rfl
  | some m =>
    simp only [Option.map_some, exec_carriesBudget i b m]
    cases exec i m with
    | next t =>
      by_cases hrun : t.status.state = .running
      · simpa [hrun] using finishStep_carriesBudget b t
      · simp [hrun]
    | fault e => rfl
    | refused e => rfl

theorem fetchAndRun_carriesBudget : CarriesBudget fetchAndRun := by
  intro b s
  simp only [fetchAndRun, withBudget_fetch]
  cases s.fetch with
  | none => rfl
  | some r =>
    cases hdec : decode r with
    | error e => simp [hdec]
    | ok i => simpa [hdec] using runInstr_carriesBudget i b s

/-- A budget that is not used up makes no difference to a step of a running machine. -/
theorem step_withBudget {s : State} {b : Option Nat} (hrun : s.status.state = .running)
    (hs : s.stepBudget ≠ some s.status.steps) (hb : b ≠ some s.status.steps) :
    step (s.withBudget b) = mapNext (State.withBudget b) (step s) := by
  have hrun' : (s.withBudget b).status.state = .running := hrun
  cases hout : s.pcOutside with
  | true =>
    rw [step_of_outside hrun' hout, step_of_outside hrun hout]
    rfl
  | false =>
    rw [step_of_running hrun', step_of_running hrun]
    simpa [runningStep, hout, hs, hb] using fetchAndRun_carriesBudget b s

/-- R220: inside the program, a used-up budget ends the run before the fetch. -/
theorem step_of_budget_used {s : State} (hrun : s.status.state = .running) (hin : s.pcOutside = false)
    (hused : s.stepBudget = some s.status.steps) : step s = .next s.exhaustBudget := by
  simp [step_of_running hrun, runningStep, hin, hused]

/-- Settles O20: the halt check comes before the budget test, and no other sub-step reads the budget. -/
theorem budgetEndsARunAndDoesNothingElse : Obligations.BudgetEndsARunAndDoesNothingElse := by
  intro s hrun
  refine ⟨fun hout => ⟨s.halt, step_of_outside hrun (pcOutside_iff.mpr hout), rfl⟩, fun hnonneg hlt hused => ?_,
    fun hunused t h => ?_⟩
  · have hin : s.pcOutside = false := by simp [State.pcOutside, hnonneg, hlt]
    exact ⟨step_of_budget_used hrun hin hused, rfl⟩
  · have hstep := step_withBudget (s := s.withBudget none) hrun (Option.some_ne_none _).symm hunused
    have hnone : step (s.withBudget none) = .next t := h
    rw [hnone] at hstep
    exact hstep

end Sys2Proof.Machine

/-! PROOFS. The first failing check of a launch, in the fixed order of R214: the launch's own checks (R212), and those of
each record of the program (R77). -/

namespace Sys2Proof.Machine

/-! ## The checks of the launch itself -/

/-- R213: what a launch reports is what its first failing check records. -/
theorem reportsLoadError_of_launchError {inp : LaunchInputs} {s : State} {code : ErrCode} {index : Int}
    {field : ErrField} (h : launchError s.cfg.regWidth inp = some (code, index, field)) :
    (launch inp s).ReportsLoadError code index field := by
  rw [launch, h]
  rfl

/-- Check 1 fails for a register count below 1 or a wrong length of `INIT`, and records one of the two inputs. -/
theorem regCountError_of_bad {inp : LaunchInputs} (h : inp.nreg < 1 ∨ (inp.init.length : Int) ≠ inp.nreg) :
    regCountError inp = some .nreg ∨ regCountError inp = some .init := by
  unfold regCountError
  split_ifs with hpos hboth hlen
  · exact .inr rfl
  · exact .inl rfl
  · exact .inr rfl
  · exact absurd h (by simp [hpos, hlen])

theorem regCountError_of_good {inp : LaunchInputs} (hpos : 1 ≤ inp.nreg)
    (hlen : (inp.init.length : Int) = inp.nreg) : regCountError inp = none := by
  simp [regCountError, not_lt.mpr hpos, hlen]

theorem inFile_toNat_iff {nreg f : Int} : inFile nreg.toNat f = true ↔ FieldNames nreg f := by
  rw [inFile_iff]
  omega

theorem inFile_toNat_eq_false_iff {nreg f : Int} : inFile nreg.toNat f = false ↔ ¬ FieldNames nreg f := by
  rw [← inFile_toNat_iff, Bool.not_eq_true]

theorem ipbBad_eq_false_of_names {inp : LaunchInputs} (h : ∀ ip ∈ inp.ipb, FieldNames inp.nreg ip) :
    ipbBad inp = false := by
  unfold ipbBad
  split
  · rfl
  next ip hip => simp [inFile_toNat_iff.mpr (h ip hip)]

/-! ## The checks of the program -/

@[simp] theorem encode_a (i : Instr) : (encode i).a = i.fieldA := rfl
@[simp] theorem encode_b (i : Instr) : (encode i).b = i.fieldB := rfl
@[simp] theorem encode_c (i : Instr) : (encode i).c = i.dest := rfl

/-- The check of an operand kind passes for a field of another kind, and for a good field. -/
theorem kindCheck_eq_false {kind k : OperandKind} {ok : Bool} (h : kind = k → ok = true) :
    (kind = k && !ok) = false := by
  simpa using h

/-- R77: the ordered checks of a launch answer the failure that `RecordFails` describes in words. -/
theorem recordError_of_recordFails {nreg : Int} {w : RegWidth} {r : Record} {code : ErrCode} {field : ErrField}
    (h : RecordFails nreg w r code field) : recordError nreg.toNat w r = some (code, field) := by
  rcases h with ⟨hop, rfl, rfl⟩ | ⟨i, rfl, h⟩
  · exact recordError_of_le hop _ w
  simp only [encode_a, encode_b, encode_c, ← inFile_toNat_iff, Bool.not_eq_true] at h
  rw [recordError_encode, instrError]
  rcases h with ⟨hc, rfl, rfl⟩ | ⟨hc, h⟩
  · simp [hc]
  rcases h with ⟨hkind, ha, rfl, rfl⟩ | ⟨hregA, h⟩
  · simp [hc, hkind, ha]
  rcases h with ⟨hkind, hb, rfl, rfl⟩ | ⟨hregB, h⟩
  · simp [hc, kindCheck_eq_false hregA, hkind, hb]
  rcases h with ⟨hkind, ha, rfl, rfl⟩ | ⟨himmA, hkind, hb, rfl, rfl⟩
  · simp [hc, kindCheck_eq_false hregB, hkind, ha]
  · simp [hc, kindCheck_eq_false hregA, kindCheck_eq_false himmA, hkind, hb]

/-- R214: records that pass are passed over, and the first that fails is reported at its index. -/
theorem programError_append {nreg : Nat} {w : RegWidth} {good rest : List Record} {r : Record} {code : ErrCode}
    {field : ErrField} (hgood : ∀ q ∈ good, recordError nreg w q = none)
    (hr : recordError nreg w r = some (code, field)) (k : Nat) :
    programError nreg w k (good ++ r :: rest) = some (code, (k : Int) + good.length, field) := by
  induction good generalizing k with
  | nil => simp [programError, hr]
  | cons q good ih =>
    obtain ⟨hq, hgood⟩ := List.forall_mem_cons.mp hgood
    simp [programError, hq, ih hgood]
    omega

/-- Settles O32: the checks of a launch are made in R214's order, and each of the first that fails is reported. -/
theorem launchReportsTheFirstFailure : Obligations.LaunchReportsTheFirstFailure := by
  intro inp s
  refine ⟨fun hbad => ?_, fun hpos hlen => ?_⟩
  · rcases regCountError_of_bad hbad with hfield | hfield
    · exact .inl (reportsLoadError_of_launchError (by simp [launchError, hfield]))
    · exact .inr (reportsLoadError_of_launchError (by simp [launchError, hfield]))
  have hcount : regCountError inp = none := regCountError_of_good hpos hlen
  refine ⟨fun ip hip hname => ?_, fun hipb => ?_⟩
  · have hbad : ipbBad inp = true := by simp [ipbBad, hip, inFile_toNat_eq_false_iff.mpr hname]
    exact reportsLoadError_of_launchError (by simp [launchError, hcount, hbad])
  have hbound : ipbBad inp = false := ipbBad_eq_false_of_names hipb
  refine ⟨fun hinit => ?_, fun hinit good r rest code field hprog hgood hfails => ?_⟩
  · have hbad : ¬ inp.init.all (inRange s.cfg.regWidth) = true := by simpa using hinit
    exact reportsLoadError_of_launchError (by simp [launchError, hcount, hbound, hbad])
  · have hfit : inp.init.all (inRange s.cfg.regWidth) = true := List.all_eq_true.mpr hinit
    have hpass : ∀ q ∈ good, recordError inp.nreg.toNat s.cfg.regWidth q = none := by
      intro q hq
      obtain ⟨i, hwf, rfl⟩ := hgood q hq
      rw [recordError_encode]
      exact instrError_eq_none_iff.mpr hwf
    have herr := programError_append (rest := rest) hpass (recordError_of_recordFails hfails) 0
    exact reportsLoadError_of_launchError (by simp [launchError, hcount, hbound, hfit, hprog, herr])

end Sys2Proof.Machine

/-! PROOFS. What a run of an accepted program cannot raise (R210): no fault, no load error, and no overflow where the
width is unbounded. -/

namespace Sys2Proof.Machine

/-! ## A step of a checked machine answers a next state -/

/-- What the launch checks of the program and of the binding (R77, R212), for the machine as it stands. -/
structure State.Checked (s : State) : Prop where
  /-- The program store has `CFG.L` records. -/
  store : s.prog.length = s.cfg.len
  /-- Every record is a well-formed instruction for the register file. -/
  instrs : ∀ r ∈ s.prog, ∃ i : Instr, i.wellFormed s.regs.length s.cfg.regWidth = true ∧ encode i = r
  /-- A bound register exists. -/
  binding : s.BindingOk

theorem checked_acceptLaunch {inp : LaunchInputs} {s : State} (h : inp.Acceptable s.cfg.regWidth) :
    (acceptLaunch inp s).Checked := by
  have hfile : inp.init.length = inp.nreg.toNat := by have := h.init_length; omega
  refine ⟨rfl, ?_, fun hvalid => ?_⟩
  · simpa [hfile] using h.prog
  · obtain ⟨ip, hip⟩ := Option.isSome_iff_exists.mp hvalid
    obtain ⟨hnonneg, hlt⟩ := h.ipb ip hip
    rw [acceptLaunch_ipbIdx_of_some hip, acceptLaunch_regs]
    omega

/-- The checks speak of what no step changes. -/
theorem State.Checked.of_sameSetup {s t : State} (h : s.Checked) (hst : s.SameSetup t) : t.Checked := by
  refine ⟨?_, ?_, ?_⟩
  · rw [hst.prog, hst.cfg]
    exact h.store
  · rw [hst.prog, hst.cfg, hst.file]
    exact h.instrs
  · unfold State.BindingOk
    rw [hst.cfg, hst.file]
    exact h.binding

theorem State.Checked.exists_fetch {s : State} (h : s.Checked) (hin : s.pcOutside = false) :
    ∃ i : Instr, i.wellFormed s.regs.length s.cfg.regWidth = true ∧ s.fetch = some (encode i) := by
  have hrange : ¬ (s.pc < 0 ∨ (s.cfg.len : Int) ≤ s.pc) := by
    rw [← pcOutside_iff, hin]
    decide
  have hindex : s.pc.toNat < s.prog.length := by rw [h.store]; omega
  obtain ⟨i, hwf, henc⟩ := h.instrs _ (List.getElem_mem hindex)
  refine ⟨i, hwf, ?_⟩
  rw [State.fetch, if_pos (by omega), List.getElem?_eq_getElem hindex, henc]

theorem exists_mirrorIn_of_bindingOk {s : State} (h : s.BindingOk) : ∃ m, mirrorIn s = some m := by
  cases hvalid : s.cfg.ipbValid with
  | false => exact ⟨s, mirrorIn_eq_some_iff.mpr (.inl ⟨hvalid, rfl⟩)⟩
  | true => exact ⟨_, mirrorIn_of_binds ⟨hvalid, rfl, h hvalid⟩⟩

theorem exists_finishStep_of_bindingOk {s : State} (h : s.BindingOk) : ∃ t, finishStep s = .next t := by
  cases hvalid : s.cfg.ipbValid with
  | false => exact ⟨_, finishStep_of_mirrorOut (mirrorOut_eq_some_iff.mpr (.inl ⟨hvalid, rfl⟩))⟩
  | true =>
    have hget : s.regs[(s.cfg.ipbIdx : Int).toNat]? = some (s.regs[s.cfg.ipbIdx]'(h hvalid)) :=
      List.getElem?_eq_getElem (h hvalid)
    exact ⟨_, finishStep_of_bound hvalid ⟨Int.natCast_nonneg _, hget⟩⟩

theorem exists_exec_of_wellFormed {i : Instr} {s : State} {w : RegWidth}
    (h : i.wellFormed s.regs.length w = true) : ∃ t, exec i s = .next t := by
  obtain ⟨v, hv⟩ := exists_result_of_wellFormed h
  exact ⟨_, hv s rfl⟩

/-- R210: a well-formed instruction runs to the end of its step, or to an overflow; no sub-step faults. -/
theorem State.Checked.exists_runInstr {s : State} (h : s.Checked) {i : Instr}
    (hwf : i.wellFormed s.regs.length s.cfg.regWidth = true) : ∃ t, runInstr i s = .next t := by
  obtain ⟨m, hm⟩ := exists_mirrorIn_of_bindingOk h.binding
  have hsm := mirrorIn_sameSetup hm
  obtain ⟨u, hu⟩ := exists_exec_of_wellFormed (s := m) (hsm.file ▸ hwf)
  by_cases hrun : u.status.state = .running
  · rw [runInstr_of_running hm hu hrun]
    exact exists_finishStep_of_bindingOk (h.of_sameSetup (hsm.trans (exec_sameSetup hu))).binding
  · exact ⟨u, runInstr_of_ended hm hu hrun⟩

theorem State.Checked.exists_step {s : State} (h : s.Checked) : ∃ t, step s = .next t := by
  by_cases hrun : s.status.state = .running
  · cases hin : s.pcOutside with
    | true => exact ⟨_, step_of_outside hrun hin⟩
    | false =>
      by_cases hused : s.stepBudget = some s.status.steps
      · exact ⟨_, step_of_budget_used hrun hin hused⟩
      · obtain ⟨i, hwf, hfetch⟩ := h.exists_fetch hin
        rw [step_of_fetch hrun hin hused hfetch (decode_encode i)]
        exact h.exists_runInstr hwf
  · exact ⟨s, step_of_not_running hrun⟩

/-! ## What a step raises -/

/-- The machine shows no load error, and no overflow where its width is unbounded. -/
def State.RaisesNothing (s : State) : Prop :=
  s.status.state ≠ .loadError ∧ (s.cfg.regWidth = .unbounded → s.status.state ≠ .overflow)

theorem raisesNothing_of_running {s : State} (h : s.status.state = .running) : s.RaisesNothing := by
  simp [State.RaisesNothing, h]

/-- R104: an instruction goes on, or it overflows a finite width. -/
theorem exec_state_cases {i : Instr} {s t : State} (hrun : s.status.state = .running) (h : exec i s = .next t) :
    t.status.state = .running ∨ (t.status.state = .overflow ∧ t.cfg.regWidth ≠ .unbounded) := by
  obtain ⟨v, hw⟩ := exists_writeResult_of_exec h
  obtain ⟨-, ⟨-, rfl⟩ | ⟨hover, rfl⟩⟩ := writeResult_next hw
  · exact .inl hrun
  · refine .inr ⟨rfl, fun hwidth => ?_⟩
    rw [State.overflow_cfg] at hwidth
    rw [hwidth] at hover
    cases hover

theorem runInstr_raisesNothing {i : Instr} {s t : State} (hrun : s.status.state = .running)
    (h : runInstr i s = .next t) : t.RaisesNothing := by
  obtain ⟨m, u, hm, hu, hrest⟩ := runInstr_next h
  have hmirror : m.status.state = .running := by rw [eq_mirrored_of_mirrorIn hm, mirrored_status, hrun]
  rcases hrest with ⟨hgoes, hfin⟩ | ⟨hend, rfl⟩
  · obtain ⟨p, rfl⟩ := exists_eq_of_finishStep hfin
    exact raisesNothing_of_running hgoes
  · obtain ⟨hover, hwidth⟩ := (exec_state_cases hmirror hu).resolve_left hend
    exact ⟨by simp [hover], fun hunbounded => absurd hunbounded hwidth⟩

theorem step_raisesNothing {s t : State} (hs : s.RaisesNothing) (h : step s = .next t) : t.RaisesNothing := by
  rcases step_cases h with ⟨-, rfl⟩ | ⟨-, -, rfl⟩ | ⟨-, -, -, rfl⟩ | ⟨hrun, -, -, r, i, -, -, hinstr⟩
  · exact hs
  · simp [State.RaisesNothing]
  · simp [State.RaisesNothing]
  · exact runInstr_raisesNothing hrun hinstr

/-! ## Runs -/

/-- A run of a checked machine answers a state, of the same setup, and raises nothing on the way. -/
theorem State.Checked.exists_runSteps {s : State} (h : s.Checked) (hs : s.RaisesNothing) (k : Nat) :
    ∃ t, runSteps k s = .next t ∧ s.SameSetup t ∧ t.RaisesNothing := by
  induction k generalizing s with
  | zero => exact ⟨s, rfl, .refl s, hs⟩
  | succ k ih =>
    obtain ⟨u, hu⟩ := h.exists_step
    have hsu := step_sameSetup hu
    obtain ⟨t, ht, hut, hraise⟩ := ih (h.of_sameSetup hsu) (step_raisesNothing hs hu)
    exact ⟨t, (runSteps_succ_of_step hu k).trans ht, hsu.trans hut, hraise⟩

/-- Settles O35: the launch's checks speak of what no step changes and exclude every fault, and a step raises no load
error and overflows a finite width alone. -/
theorem runOfAnAcceptedProgramRaisesNothing : Obligations.RunOfAnAcceptedProgramRaisesNothing := by
  intro inp s k h
  obtain ⟨t, ht, hsetup, hload, hover⟩ :=
    (checked_acceptLaunch h).exists_runSteps (raisesNothing_of_running (acceptLaunch_state inp s)) k
  rw [launch_of_acceptable h]
  refine ⟨t, ht, hload, fun hunbounded => hover ?_⟩
  rw [hsetup.cfg, acceptLaunch_regWidth, hunbounded]

end Sys2Proof.Machine

/-! PROOFS. Bitwise AND and OR on two's-complement bits without limit (R120, log entry 10): the bits and the sign of a
result, that operands of the width give a result of the width (R125), and from it which instructions can overflow at all
(R104). -/

namespace Sys2Proof.Machine

/-! ## The bits of an integer -/

/-- The bit of the spec is the library's, bit by bit of the two's complement. -/
theorem bitAt_eq_one_iff (k : Nat) (v : Int) : bitAt k v = 1 ↔ v.testBit k = true := by
  cases v with
  | ofNat m =>
    simp only [bitAt, Int.testBit, Nat.testBit_eq_decide_div_mod_eq, decide_eq_true_eq, Int.ofNat_eq_natCast]
    norm_cast
  | negSucc m =>
    have hdiv : Int.negSucc m / (2 ^ k : Int) = -(((m / 2 ^ k : Nat) : Int) + 1) := by
      rw [Int.negSucc_ediv m (by positivity)]
      norm_cast
    simp only [bitAt, hdiv, Int.testBit, Nat.testBit_eq_decide_div_mod_eq, Bool.not_eq_true', decide_eq_false_iff_not]
    omega

theorem bitAt_intAnd (k : Nat) (u v : Int) :
    bitAt k (intAnd u v) = 1 ↔ bitAt k u = 1 ∧ bitAt k v = 1 := by
  simp only [bitAt_eq_one_iff, intAnd_eq_land, Int.testBit_land, Bool.and_eq_true]

theorem bitAt_intOr (k : Nat) (u v : Int) :
    bitAt k (intOr u v) = 1 ↔ bitAt k u = 1 ∨ bitAt k v = 1 := by
  simp only [bitAt_eq_one_iff, intOr_eq_lor, Int.testBit_lor, Bool.or_eq_true]

/-- Far enough up, the bits of a natural number are 0 and those of a negative integer 1. -/
theorem exists_testBit_ne (m n : Nat) : ∃ k, (Int.ofNat m).testBit k ≠ (Int.negSucc n).testBit k := by
  have hm : m < 2 ^ (m + n) := (Nat.le_add_right m n).trans_lt Nat.lt_two_pow_self
  have hn : n < 2 ^ (m + n) := (Nat.le_add_left n m).trans_lt Nat.lt_two_pow_self
  exact ⟨m + n, by simp [Int.testBit, Nat.testBit_lt_two_pow hm, Nat.testBit_lt_two_pow hn]⟩

theorem eq_of_testBit_eq {u v : Int} (h : ∀ k, u.testBit k = v.testBit k) : u = v := by
  cases u with
  | ofNat m =>
    cases v with
    | ofNat n => exact congrArg Int.ofNat (Nat.eq_of_testBit_eq h)
    | negSucc n =>
      obtain ⟨k, hk⟩ := exists_testBit_ne m n
      exact absurd (h k) hk
  | negSucc m =>
    cases v with
    | ofNat n =>
      obtain ⟨k, hk⟩ := exists_testBit_ne n m
      exact absurd (h k).symm hk
    | negSucc n =>
      exact congrArg Int.negSucc (Nat.eq_of_testBit_eq fun k => Bool.not_inj (h k))

theorem eq_of_bitAt_iff {u v : Int} (h : ∀ k, bitAt k u = 1 ↔ bitAt k v = 1) : u = v := by
  refine eq_of_testBit_eq fun k => Bool.eq_iff_iff.mpr ?_
  rw [← bitAt_eq_one_iff, ← bitAt_eq_one_iff]
  exact h k

/-! ## The sign of a result -/

theorem intAnd_neg_iff (u v : Int) : intAnd u v < 0 ↔ u < 0 ∧ v < 0 := by
  cases u <;> cases v <;> simp [intAnd, Int.negSucc_lt_zero, Int.not_ofNat_neg]

theorem intOr_neg_iff (u v : Int) : intOr u v < 0 ↔ u < 0 ∨ v < 0 := by
  cases u <;> cases v <;> simp [intOr, Int.negSucc_lt_zero, Int.not_ofNat_neg]

/-- Settles O13: the model's operations are the library's, whose bits are known; far enough up an integer's bits are its
sign, so that the bits determine it. -/
theorem bitwiseLawOnUnlimitedTwosComplement : Obligations.BitwiseLawOnUnlimitedTwosComplement :=
  ⟨fun k u v => ⟨bitAt_intAnd k u v, bitAt_intOr k u v⟩, fun _ _ => eq_of_bitAt_iff,
    fun u v => ⟨intAnd_neg_iff u v, intOr_neg_iff u v⟩⟩

/-! ## The range of a result -/

/-- `f` gives results of the width from operands of the width. -/
def KeepsRange (w : RegWidth) (f : Int → Int → Int) : Prop :=
  ∀ ⦃u v : Int⦄, inRange w u = true → inRange w v = true → inRange w (f u v) = true

/-- A natural number is in range where it has at most `w - 1` bits. -/
theorem inRange_ofNat_iff {w m : Nat} : inRange (.finite w) (.ofNat m) = true ↔ m < 2 ^ (w - 1) := by
  simp only [inRange, Bool.and_eq_true, decide_eq_true_eq, Int.ofNat_eq_natCast]
  have hpow : ((2 ^ (w - 1) : Nat) : Int) = 2 ^ (w - 1) := by norm_cast
  omega

/-- A negative integer is in range where its complement has at most `w - 1` bits. -/
theorem inRange_negSucc_iff {w m : Nat} : inRange (.finite w) (.negSucc m) = true ↔ m < 2 ^ (w - 1) := by
  simp only [inRange, Bool.and_eq_true, decide_eq_true_eq]
  have hpow : ((2 ^ (w - 1) : Nat) : Int) = 2 ^ (w - 1) := by norm_cast
  omega

theorem natAndNot_lt_two_pow {m k : Nat} (h : m < 2 ^ k) (n : Nat) : natAndNot m n < 2 ^ k :=
  Nat.xor_lt_two_pow h (Nat.and_le_left.trans_lt h)

theorem intAnd_keepsRange (w : RegWidth) : KeepsRange w intAnd := by
  intro u v hu hv
  cases w with
  | unbounded => rfl
  | finite w =>
    cases u <;> cases v <;> simp only [inRange_ofNat_iff, inRange_negSucc_iff, intAnd] at hu hv ⊢
    · exact Nat.and_lt_two_pow _ hv
    · exact natAndNot_lt_two_pow hu _
    · exact natAndNot_lt_two_pow hv _
    · exact Nat.or_lt_two_pow hu hv

theorem intOr_keepsRange (w : RegWidth) : KeepsRange w intOr := by
  intro u v hu hv
  cases w with
  | unbounded => rfl
  | finite w =>
    cases u <;> cases v <;> simp only [inRange_ofNat_iff, inRange_negSucc_iff, intOr] at hu hv ⊢
    · exact Nat.or_lt_two_pow hu hv
    · exact natAndNot_lt_two_pow hv _
    · exact natAndNot_lt_two_pow hu _
    · exact Nat.and_lt_two_pow _ hv

/-- A truth value is 0 or 1, which every legal width holds. -/
theorem b2i_inRange {w : RegWidth} (hw : w.legal = true) (c : Bool) : inRange w (b2i c) = true := by
  cases c
  · exact inRange_of_zero_le_of_le_one hw le_rfl zero_le_one
  · exact inRange_of_zero_le_of_le_one hw zero_le_one le_rfl

theorem gtBit_keepsRange {w : RegWidth} (hw : w.legal = true) : KeepsRange w gtBit :=
  fun _ _ _ _ => b2i_inRange hw _

theorem eqBit_keepsRange {w : RegWidth} (hw : w.legal = true) : KeepsRange w eqBit :=
  fun _ _ _ _ => b2i_inRange hw _

/-! ## What the bitwise instructions write -/

/-- The register form and the immediate form of an operation that keeps the width and whose bits are given by `p`: from
operands of the width each completes, with a value of these bits in the destination. -/
theorem bitwise_forms {f : Int → Int → Int} {p : Prop → Prop → Prop} {s : State} {a b c x : Int}
    (hrange : KeepsRange s.cfg.regWidth f)
    (hbits : ∀ k u v, bitAt k (f u v) = 1 ↔ p (bitAt k u = 1) (bitAt k v = 1)) (ha : s.Holds a x) (hx : s.Fits x)
    (hc : s.Names c) :
    (∀ y, s.Holds b y → s.Fits y → ∃ v, exec2 f (.reg a) (.reg b) c s = .next (s.withReg c v) ∧
      ∀ k, bitAt k v = 1 ↔ p (bitAt k x = 1) (bitAt k y = 1)) ∧
    (s.Fits b → ∃ v, exec2 f (.reg a) (.imm b) c s = .next (s.withReg c v) ∧
      ∀ k, bitAt k v = 1 ↔ p (bitAt k x = 1) (bitAt k b = 1)) := by
  obtain ⟨hreg, -, himm, -⟩ := exec2_forms (b := b) f ha hc
  exact ⟨fun y hb hy => ⟨f x y, hreg y hb (hrange hx hy), fun k => hbits k x y⟩,
    fun hb => ⟨f x b, himm (hrange hx hb), fun k => hbits k x b⟩⟩

theorem exec_banr (a b c : Int) (s : State) : exec (.banr a b c) s = exec2 intAnd (.reg a) (.reg b) c s := rfl

theorem exec_bani (a b c : Int) (s : State) : exec (.bani a b c) s = exec2 intAnd (.reg a) (.imm b) c s := rfl

theorem exec_borr (a b c : Int) (s : State) : exec (.borr a b c) s = exec2 intOr (.reg a) (.reg b) c s := rfl

theorem exec_bori (a b c : Int) (s : State) : exec (.bori a b c) s = exec2 intOr (.reg a) (.imm b) c s := rfl

/-- Settles O8: `banr` and `bani` are the two forms of AND, which keeps the width and has the common bits. -/
theorem andWritesTheCommonBits : Obligations.AndWritesTheCommonBits := by
  intro s a b c x _ ha hx hc
  rw [exec_bani]
  simp only [exec_banr]
  exact ⟨rfl, rfl, bitwise_forms (intAnd_keepsRange _) bitAt_intAnd ha hx hc⟩

/-- Settles O9: `borr` and `bori` are the two forms of OR, which keeps the width and has the united bits. -/
theorem orWritesTheUnitedBits : Obligations.OrWritesTheUnitedBits := by
  intro s a b c x _ ha hx hc
  rw [exec_bori]
  simp only [exec_borr]
  exact ⟨rfl, rfl, bitwise_forms (intOr_keepsRange _) bitAt_intOr ha hx hc⟩

/-! ## Which instructions can overflow -/

/-- The value the operand `a` has in `s`, where it has one, is of the width. -/
def OperandFits (s : State) (a : Operand) : Prop := ∀ u, opval s a = some u → s.Fits u

theorem operandFits_reg {s : State} (hregs : ∀ v ∈ s.regs, s.Fits v) (a : Int) : OperandFits s (.reg a) := by
  intro u hu
  obtain ⟨-, hget⟩ := readReg_eq_some_iff.mp hu
  exact hregs u (List.mem_of_getElem? hget)

theorem operandFits_imm {s : State} {a : Int} (h : s.Fits a) : OperandFits s (.imm a) := by
  rintro u ⟨⟩
  exact h

/-- R104: a result of the width is written, and `STATUS` stays. -/
theorem writeResult_status_eq {s t : State} {c v : Int} (hv : s.Fits v) (h : writeResult s c v = .next t) :
    t.status = s.status := by
  obtain ⟨-, ⟨-, rfl⟩ | ⟨hover, -⟩⟩ := writeResult_next h
  · rfl
  · cases hv.symm.trans hover

/-- An assignment of an operand of the width does not overflow. -/
theorem exec1_status_eq {s t : State} {a : Operand} {c : Int} (ha : OperandFits s a)
    (h : exec1 (fun u => u) a c s = .next t) : t.status = s.status := by
  obtain ⟨u, hu, hw⟩ := exec1_next h
  exact writeResult_status_eq (ha u hu) hw

/-- An operation that keeps the width does not overflow from operands of the width. -/
theorem exec2_status_eq {f : Int → Int → Int} {s t : State} {a b : Operand} {c : Int}
    (hf : KeepsRange s.cfg.regWidth f) (ha : OperandFits s a) (hb : OperandFits s b)
    (h : exec2 f a b c s = .next t) : t.status = s.status := by
  obtain ⟨u, v, hu, hv, hw⟩ := exec2_next h
  exact writeResult_status_eq (hf (ha u hu) (hb v hv)) hw

theorem or_le_add (m n : Nat) : m ||| n ≤ m + n := by
  induction m using Nat.strong_induction_on generalizing n with
  | _ m ih =>
    by_cases hm : m = 0
    · simp [hm]
    · have hhalf : m / 2 ||| n / 2 ≤ m / 2 + n / 2 := ih (m / 2) (by omega) (n / 2)
      rw [← Nat.or_div_two] at hhalf
      have hlow : (m ||| n) % 2 = 1 ↔ m % 2 = 1 ∨ n % 2 = 1 := Nat.or_mod_two_eq_one
      omega

/-- R125: the bounds of AND and OR of natural numbers. -/
theorem bitwise_bounds {u v : Int} (hu : 0 ≤ u) (hv : 0 ≤ v) :
    0 ≤ intAnd u v ∧ intAnd u v ≤ min u v ∧ max u v ≤ intOr u v ∧ intOr u v ≤ u + v := by
  obtain ⟨m, rfl⟩ := Int.eq_ofNat_of_zero_le hu
  obtain ⟨n, rfl⟩ := Int.eq_ofNat_of_zero_le hv
  have hand : intAnd m n = ((m &&& n : Nat) : Int) := rfl
  have hor : intOr m n = ((m ||| n : Nat) : Int) := rfl
  have handl : m &&& n ≤ m := Nat.and_le_left
  have handr : m &&& n ≤ n := Nat.and_le_right
  have horl : m ≤ m ||| n := Nat.left_le_or
  have horr : n ≤ m ||| n := Nat.right_le_or
  have hadd := or_le_add m n
  omega

/-- Settles O14: AND and OR keep the width, so that the write of their result cannot overflow; the bounds are those of
natural numbers. -/
theorem bitwiseResultsStayInRange : Obligations.BitwiseResultsStayInRange := by
  refine ⟨fun w u v hu hv => ⟨intAnd_keepsRange w hu hv, intOr_keepsRange w hu hv⟩, ?_,
    fun u v hu hv => bitwise_bounds hu hv⟩
  intro s t a b c _ hregs hb h
  have hreg : ∀ r, OperandFits s (.reg r) := operandFits_reg hregs
  have himm : OperandFits s (.imm b) := operandFits_imm hb
  rcases h with h | h | h | h
  · exact exec2_status_eq (intAnd_keepsRange _) (hreg a) (hreg b) h
  · exact exec2_status_eq (intAnd_keepsRange _) (hreg a) himm h
  · exact exec2_status_eq (intOr_keepsRange _) (hreg a) (hreg b) h
  · exact exec2_status_eq (intOr_keepsRange _) (hreg a) himm h

/-- The four instructions whose result may leave the range of their operands. -/
def AddsOrMultiplies (i : Instr) : Prop :=
  ∃ a b c, i = .addr a b c ∨ i = .addi a b c ∨ i = .mulr a b c ∨ i = .muli a b c

theorem wellFormed_iff {nreg : Nat} {w : RegWidth} {i : Instr} :
    i.wellFormed nreg w = true ↔
      inFile nreg i.dest = true ∧ i.kindA.fieldOk nreg w i.fieldA = true ∧ i.kindB.fieldOk nreg w i.fieldB = true := by
  simp only [Instr.wellFormed, Bool.and_eq_true, and_assoc]

/-- Of registers and immediates of the width, every instruction but the four leaves `STATUS` as it was. -/
theorem addsOrMultiplies_or_status_eq {i : Instr} {s t : State} (hw : s.cfg.regWidth.legal = true)
    (hregs : ∀ v ∈ s.regs, s.Fits v) (hwf : i.wellFormed s.regs.length s.cfg.regWidth = true)
    (h : exec i s = .next t) : AddsOrMultiplies i ∨ t.status = s.status := by
  obtain ⟨-, ha, hb⟩ := wellFormed_iff.mp hwf
  have hreg : ∀ r, OperandFits s (.reg r) := operandFits_reg hregs
  cases i with
  | addr a b c => exact .inl ⟨a, b, c, .inl rfl⟩
  | addi a b c => exact .inl ⟨a, b, c, .inr (.inl rfl)⟩
  | mulr a b c => exact .inl ⟨a, b, c, .inr (.inr (.inl rfl))⟩
  | muli a b c => exact .inl ⟨a, b, c, .inr (.inr (.inr rfl))⟩
  | banr a b c => exact .inr (exec2_status_eq (intAnd_keepsRange _) (hreg a) (hreg b) h)
  | bani a b c => exact .inr (exec2_status_eq (intAnd_keepsRange _) (hreg a) (operandFits_imm hb) h)
  | borr a b c => exact .inr (exec2_status_eq (intOr_keepsRange _) (hreg a) (hreg b) h)
  | bori a b c => exact .inr (exec2_status_eq (intOr_keepsRange _) (hreg a) (operandFits_imm hb) h)
  | setr a b c => exact .inr (exec1_status_eq (hreg a) h)
  | seti a b c => exact .inr (exec1_status_eq (operandFits_imm ha) h)
  | gtrr a b c => exact .inr (exec2_status_eq (gtBit_keepsRange hw) (hreg a) (hreg b) h)
  | gtri a b c => exact .inr (exec2_status_eq (gtBit_keepsRange hw) (hreg a) (operandFits_imm hb) h)
  | gtir a b c => exact .inr (exec2_status_eq (gtBit_keepsRange hw) (operandFits_imm ha) (hreg b) h)
  | eqrr a b c => exact .inr (exec2_status_eq (eqBit_keepsRange hw) (hreg a) (hreg b) h)
  | eqri a b c => exact .inr (exec2_status_eq (eqBit_keepsRange hw) (hreg a) (operandFits_imm hb) h)
  | eqir a b c => exact .inr (exec2_status_eq (eqBit_keepsRange hw) (operandFits_imm ha) (hreg b) h)

theorem regWidth_ne_unbounded_of_overflow {i : Instr} {s : State} (hrun : s.status.state = .running)
    (h : exec i s = .next s.overflow) : s.cfg.regWidth ≠ .unbounded := by
  rcases exec_state_cases hrun h with hgoes | ⟨-, hwidth⟩
  · cases hgoes
  · exact hwidth

/-- Settles O16: a well-formed instruction writes its destination or overflows a finite width, and the results of all but
the four stay in range. -/
theorem onlyAddAndMultiplyOverflow : Obligations.OnlyAddAndMultiplyOverflow := by
  intro i s hw hrun hregs hwf
  obtain ⟨t, ht⟩ := exists_exec_of_wellFormed hwf
  refine ⟨t, ht, ?_⟩
  rcases addsOrMultiplies_or_status_eq hw hregs hwf ht with harith | hstatus
  · obtain ⟨-, ⟨v, rfl⟩ | rfl⟩ := exec_next_cases ht
    · exact .inl rfl
    · exact .inr ⟨rfl, regWidth_ne_unbounded_of_overflow hrun ht, harith⟩
  · exact .inl hstatus

end Sys2Proof.Machine

/-! PROOFS. The model's fault where an instruction names no register (log entry 3). -/

namespace Sys2Proof.Machine

/-- An operand that fails its check names no register, and has no value. -/
theorem opval_eq_none_of_not_fieldOk {s : State} {a : Operand} (h : a.fieldOk s.regs.length .unbounded = false) :
    opval s a = none := by
  cases a with
  | reg f => exact readReg_eq_none_iff.mpr h
  | imm f => cases h

theorem exec1_faults {f : Int → Int} {a : Operand} {c : Int} {s : State} (h : opval s a = none ∨ s.hasReg c = false) :
    exec1 f a c s = .fault .noSuchRegister := by
  cases hu : opval s a with
  | none => simp [exec1, hu]
  | some u => rw [exec1_of_opval hu, writeResult_of_no_reg (h.resolve_left (by simp [hu]))]

theorem exec2_faults {f : Int → Int → Int} {a b : Operand} {c : Int} {s : State}
    (h : opval s a = none ∨ opval s b = none ∨ s.hasReg c = false) :
    exec2 f a b c s = .fault .noSuchRegister := by
  cases hu : opval s a with
  | none => simp [exec2, hu]
  | some u =>
    cases hv : opval s b with
    | none => simp [exec2, hv]
    | some v => rw [exec2_of_opval hu hv, writeResult_of_no_reg (by simpa [hu, hv] using h)]

/-- The checks of an instruction's fields are those of its destination and of the operands it reads. -/
theorem exec_shape_wellFormed (i : Instr) :
    (∃ f a, (∀ nreg w, i.wellFormed nreg w = (inFile nreg i.dest && a.fieldOk nreg w)) ∧
      ∀ s, exec i s = exec1 f a i.dest s) ∨
    (∃ f a b, (∀ nreg w, i.wellFormed nreg w = (inFile nreg i.dest && a.fieldOk nreg w && b.fieldOk nreg w)) ∧
      ∀ s, exec i s = exec2 f a b i.dest s) := by
  cases i with
  | setr a => exact .inl ⟨id, .reg a, fun _ _ => Bool.and_true _, fun _ => rfl⟩
  | seti a => exact .inl ⟨id, .imm a, fun _ _ => Bool.and_true _, fun _ => rfl⟩
  | addr a b | mulr a b | banr a b | borr a b | gtrr a b | eqrr a b =>
    exact .inr ⟨_, .reg a, .reg b, fun _ _ => rfl, fun _ => rfl⟩
  | addi a b | muli a b | bani a b | bori a b | gtri a b | eqri a b =>
    exact .inr ⟨_, .reg a, .imm b, fun _ _ => rfl, fun _ => rfl⟩
  | gtir a b | eqir a b => exact .inr ⟨_, .imm a, .reg b, fun _ _ => rfl, fun _ => rfl⟩

/-- Settles O17: a field that fails its check is the destination or an operand that has no value, and either is the
fault. -/
theorem missingRegisterFaults : Obligations.MissingRegisterFaults := by
  intro i s h
  rcases exec_shape_wellFormed i with ⟨f, a, hwf, hexec⟩ | ⟨f, a, b, hwf, hexec⟩
  · rw [hwf, Bool.and_eq_false_iff] at h
    rw [hexec]
    exact exec1_faults (h.symm.imp_left opval_eq_none_of_not_fieldOk)
  · rw [hwf, Bool.and_eq_false_iff, Bool.and_eq_false_iff] at h
    rw [hexec]
    rcases h with (hdest | ha) | hb
    · exact exec2_faults (.inr (.inr hdest))
    · exact exec2_faults (.inl (opval_eq_none_of_not_fieldOk ha))
    · exact exec2_faults (.inr (.inl (opval_eq_none_of_not_fieldOk hb)))

end Sys2Proof.Machine

/-! PROOFS. The executed instruction (R181, R184 to R187): one step of a running machine inside its program, as an
inversion that says all it does, and as rules that say when it completes. -/

namespace Sys2Proof.Machine

/-! ## The state after the mirror -/

@[simp] theorem mirrored_cfg (s : State) : s.mirrored.cfg = s.cfg := by unfold State.mirrored; split <;> rfl
@[simp] theorem mirrored_pc (s : State) : s.mirrored.pc = s.pc := by unfold State.mirrored; split <;> rfl
@[simp] theorem mirrored_prog (s : State) : s.mirrored.prog = s.prog := by unfold State.mirrored; split <;> rfl
@[simp] theorem mirrored_stepBudget (s : State) : s.mirrored.stepBudget = s.stepBudget := by
  unfold State.mirrored; split <;> rfl
@[simp] theorem mirrored_finalRegs (s : State) : s.mirrored.finalRegs = s.finalRegs := by
  unfold State.mirrored; split <;> rfl
@[simp] theorem mirrored_regs_length (s : State) : s.mirrored.regs.length = s.regs.length := by
  unfold State.mirrored; split <;> simp

theorem mirrored_of_binds {s : State} {ip : Nat} (h : s.Binds ip) : s.mirrored = s.withReg ip s.pc := by
  obtain ⟨hvalid, rfl, -⟩ := h
  exact if_pos hvalid

theorem mirrored_withReg_running {s : State} (h : s.status.state = .running) (c v : Int) :
    (s.mirrored.withReg c v).status.state = .running := by
  rw [State.withReg, mirrored_status, h]

theorem mirrorIn_eq_mirrored {s : State} (h : s.BindingOk) : mirrorIn s = some s.mirrored := by
  obtain ⟨m, hm⟩ := exists_mirrorIn_of_bindingOk h
  rw [hm, eq_mirrored_of_mirrorIn hm]

/-! ## From the outcome of `exec` to the outcome of the step -/

theorem finishStep_of_unbound {s : State} (h : s.cfg.ipbValid = false) :
    finishStep s = .next (s.countStep.setPc (s.pc + 1)) :=
  finishStep_of_mirrorOut (mirrorOut_eq_some_iff.mpr (.inl ⟨h, rfl⟩))

section Executing

variable {s : State} {i : Instr} (hcan : s.CanRun) (hi : s.Fetches i) (hbinding : s.BindingOk)
include hcan hi hbinding

theorem step_eq_finishStep {t : State} (hexec : exec i s.mirrored = .next t) (hrun : t.status.state = .running) :
    step s = finishStep t := by
  rw [step_of_fetches hcan hi, runInstr_of_running (mirrorIn_eq_mirrored hbinding) hexec hrun]

theorem step_of_exec_ended {t : State} (hexec : exec i s.mirrored = .next t) (hend : t.status.state ≠ .running) :
    step s = .next t := by
  rw [step_of_fetches hcan hi, runInstr_of_ended (mirrorIn_eq_mirrored hbinding) hexec hend]

theorem step_of_exec_fault {f : Fault} (hexec : exec i s.mirrored = .fault f) : step s = .fault f := by
  rw [step_of_fetches hcan hi, runInstr, mirrorIn_eq_mirrored hbinding]
  simp only [hexec]

end Executing

/-- Settles O18: the step is `exec` on the state after the mirror, and then, where the run goes on, the end of the step
with or without a bound register. -/
theorem stepRunsTheDecodedInstruction : Obligations.StepRunsTheDecodedInstruction := by
  intro s i hcan hi hbinding
  refine ⟨fun t hexec hrun hvalid => ?_, fun t v hexec hrun hvalid hholds => ?_,
    fun t => step_of_exec_ended hcan hi hbinding, fun f => step_of_exec_fault hcan hi hbinding⟩
  · rw [step_eq_finishStep hcan hi hbinding hexec hrun, finishStep_of_unbound hvalid]
    rfl
  · rw [step_eq_finishStep hcan hi hbinding hexec hrun, finishStep_of_bound hvalid hholds]
    rfl

/-- Settles O21: by induction on the number of steps, each of which answers the state itself. -/
theorem terminalStatesAreFinal : Obligations.TerminalStatesAreFinal :=
  fun k _ hend => runSteps_of_not_running hend k

/-! ## Faults of states that no launch gives (log entry 3) -/

theorem mirrorIn_eq_none_of_not_bindingOk {s : State} (h : ¬ s.BindingOk) : mirrorIn s = none := by
  obtain ⟨hvalid, hidx⟩ : s.cfg.ipbValid = true ∧ ¬ s.cfg.ipbIdx < s.regs.length := by simpa using h
  have hnone : s.writeReg s.cfg.ipbIdx s.pc = none := by
    rw [writeReg_eq_none_iff, State.hasReg, ← Bool.not_eq_true, inFile_iff]
    omega
  simpa [mirrorIn, State.boundReg, hvalid] using hnone

/-- Settles O22: each of the three sub-steps, fetch, decode and mirror, has its own fault. -/
theorem statesNoLaunchGivesFault : Obligations.StatesNoLaunchGivesFault := by
  intro s hcan
  have hfetch : s.fetch = s.prog[s.pc.toNat]? := if_pos hcan.2.1
  refine ⟨fun hshort => ?_, fun r hr hop => ?_, fun i hi hbinding => ?_⟩
  · rw [step_of_canRun hcan, fetchAndRun, hfetch, List.getElem?_eq_none hshort]
  · rw [step_of_canRun hcan, fetchAndRun, hfetch, hr]
    simp only [decode_of_le hop]
  · rw [step_of_fetches hcan hi, runInstr, mirrorIn_eq_none_of_not_bindingOk hbinding]

/-! ## All that an executed instruction does -/

/-- The instruction `i` was executed in the step from `s` to `t`, with the result `v`. -/
structure State.Executes (s : State) (i : Instr) (v : Int) (t : State) : Prop where
  /-- The machine ran. -/
  running : s.status.state = .running
  /-- `exec` wrote the destination of the state after the mirror. -/
  exec_eq : exec i s.mirrored = .next (s.mirrored.withReg i.dest v)
  /-- The destination exists. -/
  dest : s.mirrored.Names i.dest
  /-- The result is of the width (R104). -/
  fits : s.Fits v
  /-- The step then counted, and moved `pc` (R186, R187). -/
  next_eq : t = (s.mirrored.withReg i.dest v).countStep.setPc t.pc
  /-- With no bound register `pc` is at the next instruction. -/
  pc_of_unbound : s.cfg.ipbValid = false → t.pc = s.pc + 1
  /-- A bound register is left one behind `pc`. -/
  bound : s.cfg.ipbValid = true → t.Holds s.cfg.ipbIdx (t.pc - 1)

namespace State.Executes

variable {s t : State} {i : Instr} {v : Int}

theorem regs_eq (h : s.Executes i v t) : t.regs = (s.mirrored.withReg i.dest v).regs := by rw [h.next_eq]; rfl

theorem holds_iff (h : s.Executes i v t) {j x : Int} :
    t.Holds j x ↔ (s.mirrored.withReg i.dest v).Holds j x := by
  rw [State.Holds, State.Holds, h.regs_eq]

theorem status_eq (h : s.Executes i v t) : t.status = { s.status with steps := s.status.steps + 1 } := by
  rw [h.next_eq]
  simp [State.withReg]

theorem cfg_eq (h : s.Executes i v t) : t.cfg = s.cfg := by
  rw [h.next_eq]
  simp [State.withReg]

theorem prog_eq (h : s.Executes i v t) : t.prog = s.prog := by
  rw [h.next_eq]
  simp [State.withReg]

theorem stepBudget_eq (h : s.Executes i v t) : t.stepBudget = s.stepBudget := by
  rw [h.next_eq]
  simp [State.withReg]

theorem finalRegs_eq (h : s.Executes i v t) : t.finalRegs = s.finalRegs := by
  rw [h.next_eq]
  simp [State.withReg]

theorem steps_eq (h : s.Executes i v t) : t.status.steps = s.status.steps + 1 := by rw [h.status_eq]

theorem state_eq (h : s.Executes i v t) : t.status.state = .running := by rw [h.status_eq, h.running]

end State.Executes

/-- All that the end of a step can do, with and without a bound register. -/
theorem finishStep_next_cases {s t : State} (h : finishStep s = .next t) :
    (s.cfg.ipbValid = false ∧ t = s.countStep.setPc (s.pc + 1)) ∨
    (s.cfg.ipbValid = true ∧ ∃ v, s.Holds s.cfg.ipbIdx v ∧ t = s.countStep.setPc (v + 1)) := by
  obtain ⟨u, hu, rfl⟩ := finishStep_next h
  rcases mirrorOut_eq_some_iff.mp hu with ⟨hvalid, rfl⟩ | ⟨hvalid, v, hread, rfl⟩
  · exact .inl ⟨hvalid, rfl⟩
  · exact .inr ⟨hvalid, v, readReg_eq_some_iff.mp hread, rfl⟩

/-- The result that an instruction wrote is of the width. -/
theorem exec_next_fits_cases {i : Instr} {s t : State} (h : exec i s = .next t) :
    s.Names i.dest ∧ ((∃ v, s.Fits v ∧ t = s.withReg i.dest v) ∨ t = s.overflow) := by
  obtain ⟨v, hw⟩ := exists_writeResult_of_exec h
  obtain ⟨hreg, ⟨hfits, ht⟩ | ⟨-, ht⟩⟩ := writeResult_next hw
  · exact ⟨inFile_iff.mp hreg, .inl ⟨v, hfits, ht⟩⟩
  · exact ⟨inFile_iff.mp hreg, .inr ht⟩

/-- All that a running machine does with a fetched instruction: execute it, or overflow a finite width (R216). -/
theorem executes_or_overflow_of_runInstr {i : Instr} {s t : State} (hrun : s.status.state = .running)
    (h : runInstr i s = .next t) :
    (∃ v, s.Executes i v t) ∨ (s.cfg.regWidth ≠ .unbounded ∧ t = s.mirrored.overflow) := by
  obtain ⟨m, u, hm, hu, hrest⟩ := runInstr_next h
  obtain rfl := eq_mirrored_of_mirrorIn hm
  have hrun' : s.mirrored.status.state = .running := by rw [mirrored_status, hrun]
  obtain ⟨hdest, ⟨v, hfits, rfl⟩ | rfl⟩ := exec_next_fits_cases hu
  · left
    have hfits' : s.Fits v := by simpa [State.Fits] using hfits
    have hcfg : (s.mirrored.withReg i.dest v).cfg = s.cfg := mirrored_cfg s
    rcases hrest with ⟨-, hfin⟩ | ⟨hend, -⟩
    · rcases finishStep_next_cases hfin with ⟨hvalid, rfl⟩ | ⟨hvalid, p, hholds, rfl⟩
      · rw [hcfg] at hvalid
        exact ⟨v, hrun, hu, hdest, hfits', rfl, fun _ => congrArg (· + 1) (mirrored_pc s), by simp [hvalid]⟩
      · rw [hcfg] at hvalid hholds
        refine ⟨v, hrun, hu, hdest, hfits', rfl, by simp [hvalid], fun _ => ?_⟩
        rwa [State.setPc_pc, add_sub_cancel_right]
    · exact absurd (mirrored_withReg_running hrun i.dest v) hend
  · right
    rcases hrest with ⟨hgoes, -⟩ | ⟨-, rfl⟩
    · cases hgoes
    · exact ⟨by simpa using regWidth_ne_unbounded_of_overflow hrun' hu, rfl⟩

theorem pcOutside_eq_false_iff {s : State} : s.pcOutside = false ↔ 0 ≤ s.pc ∧ s.pc < (s.cfg.len : Int) := by
  simp [State.pcOutside]

theorem canRun_of_pcOutside_eq_false {s : State} (hrun : s.status.state = .running) (hin : s.pcOutside = false)
    (hbudget : s.stepBudget ≠ some s.status.steps) : s.CanRun := by
  obtain ⟨hnonneg, hlt⟩ := pcOutside_eq_false_iff.mp hin
  exact ⟨hrun, hnonneg, hlt, hbudget⟩

/-- All that a step of a running machine can do: halt, exhaust the budget, execute an instruction, or overflow. -/
theorem step_running_cases {s t : State} (hrun : s.status.state = .running) (h : step s = .next t) :
    (s.pcOutside = true ∧ t = s.halt) ∨
    (s.stepBudget = some s.status.steps ∧ t = s.exhaustBudget) ∨
    (s.CanRun ∧ ∃ i v, s.Executes i v t) ∨
    (s.CanRun ∧ s.cfg.regWidth ≠ .unbounded ∧ t = s.mirrored.overflow) := by
  rcases step_cases h with ⟨hend, -⟩ | ⟨-, hout, rfl⟩ | ⟨-, -, hused, rfl⟩ | ⟨-, hin, hbudget, r, i, -, -, hinstr⟩
  · exact absurd hrun hend
  · exact .inl ⟨hout, rfl⟩
  · exact .inr (.inl ⟨hused, rfl⟩)
  · have hcan := canRun_of_pcOutside_eq_false hrun hin hbudget
    rcases executes_or_overflow_of_runInstr hrun hinstr with ⟨v, hexec⟩ | hover
    · exact .inr (.inr (.inl ⟨hcan, i, v, hexec⟩))
    · exact .inr (.inr (.inr ⟨hcan, hover⟩))

/-- A step that leaves the machine running executed an instruction. -/
theorem exists_executes_of_running {s t : State} (h : step s = .next t) (hs : s.status.state = .running)
    (ht : t.status.state = .running) : ∃ i v, s.Executes i v t := by
  rcases step_running_cases hs h with ⟨-, rfl⟩ | ⟨-, rfl⟩ | ⟨-, hexec⟩ | ⟨-, -, rfl⟩
  · cases ht
  · cases ht
  · exact hexec
  · cases ht

/-- Settles O24: the end of an executed instruction counts it, and leaves a bound register one behind `pc`. -/
theorem incrementLeavesTheBoundRegisterBehind : Obligations.IncrementLeavesTheBoundRegisterBehind := by
  intro s t hcan h hrun
  obtain ⟨i, v, hexec⟩ := exists_executes_of_running h hcan.1 hrun
  refine ⟨hexec.steps_eq, ?_, hexec.pc_of_unbound⟩
  rintro ip ⟨hvalid, rfl, -⟩
  exact hexec.bound hvalid

/-! ## A write of the bound register is a jump -/

theorem holds_unique {s : State} {i u v : Int} (hu : s.Holds i u) (hv : s.Holds i v) : u = v :=
  Option.some.inj (hu.2.symm.trans hv.2)

theorem executes_of_fetches {s t : State} {i : Instr} (hcan : s.CanRun) (hi : s.Fetches i) (h : step s = .next t)
    (hrun : t.status.state = .running) : ∃ v, s.Executes i v t := by
  rw [step_of_fetches hcan hi] at h
  rcases executes_or_overflow_of_runInstr hcan.1 h with hexec | ⟨-, rfl⟩
  · exact hexec
  · cases hrun

theorem names_of_binds {s : State} {ip : Nat} (h : s.Binds ip) : s.Names ip :=
  ⟨Int.natCast_nonneg ip, Int.ofNat_lt.mpr h.2.2⟩

/-- R184: after the mirror the bound register holds `pc`. -/
theorem mirrored_holds_bound {s : State} {ip : Nat} (h : s.Binds ip) : s.mirrored.Holds ip s.pc := by
  rw [mirrored_of_binds h]
  exact holds_withReg_same (names_of_binds h) s.pc

theorem mirrored_holds_of_ne {s : State} {ip : Nat} {j v : Int} (h : s.Binds ip) (hne : j ≠ ip) (hj : s.Holds j v) :
    s.mirrored.Holds j v := by
  rw [mirrored_of_binds h]
  exact holds_withReg_of_ne (Int.natCast_nonneg ip) hne hj s.pc

theorem mirrored_names {s : State} {k : Int} (h : s.Names k) : s.mirrored.Names k := by
  simpa [State.Names] using h

theorem afterResult_of_fits {s : State} {v : Int} (h : s.Fits v) (c : Int) : s.afterResult c v = s.withReg c v :=
  if_pos h

theorem mirrored_afterResult {s : State} {v : Int} (h : s.Fits v) (c : Int) :
    s.mirrored.afterResult c v = s.mirrored.withReg c v :=
  afterResult_of_fits (by simpa [State.Fits] using h) c

theorem exec_addi_of_holds {s : State} {a c x : Int} (ha : s.Holds a x) (hc : s.Names c) (b : Int) :
    exec (.addi a b c) s = .next (s.afterResult c (x + b)) := by
  rw [exec_addi, exec2_of_names (opval_reg_of_holds ha) rfl hc]

theorem exec_addr_of_holds {s : State} {a b c x y : Int} (ha : s.Holds a x) (hb : s.Holds b y) (hc : s.Names c) :
    exec (.addr a b c) s = .next (s.afterResult c (x + y)) := by
  rw [exec_addr, exec2_of_names (opval_reg_of_holds ha) (opval_reg_of_holds hb) hc]

section Executed

variable {s t : State} {i : Instr} {v : Int} {ip : Nat}

/-- What an executed instruction leaves in the bound register, of which `pc` is one past. -/
theorem State.Executes.holds_bound (h : s.Executes i v t) (hbinds : s.Binds ip) : t.Holds ip (t.pc - 1) := by
  obtain ⟨hvalid, rfl, -⟩ := hbinds
  exact h.bound hvalid

/-- R191: an instruction that does not write the bound register leaves its own index there. -/
theorem State.Executes.pc_of_dest_ne (h : s.Executes i v t) (hbinds : s.Binds ip) (hne : i.dest ≠ ip) :
    t.pc - 1 = s.pc := by
  have hkept : t.Holds ip s.pc :=
    h.holds_iff.mpr (holds_withReg_of_ne h.dest.1 hne.symm (mirrored_holds_bound hbinds) v)
  exact holds_unique (h.holds_bound hbinds) hkept

/-- R191: an instruction that writes the bound register leaves its result there. -/
theorem State.Executes.pc_of_dest_eq (h : s.Executes i v t) (hbinds : s.Binds ip) (hdest : i.dest = ip) :
    t.pc - 1 = v := by
  have hwritten : t.Holds ip v := hdest ▸ h.holds_iff.mpr (holds_withReg_same h.dest v)
  exact holds_unique (h.holds_bound hbinds) hwritten

/-- The result an instruction wrote is the one `exec` computes. -/
theorem State.Executes.result_eq {u : Int} (h : s.Executes i v t)
    (hexec : exec i s.mirrored = .next (s.mirrored.afterResult i.dest u)) : v = u := by
  have hsame : s.mirrored.withReg i.dest v = s.mirrored.afterResult i.dest u :=
    Host.Outcome.next.inj (h.exec_eq.symm.trans hexec)
  by_cases hfits : s.mirrored.Fits u
  · rw [afterResult_of_fits hfits] at hsame
    exact holds_unique (holds_withReg_same h.dest v) (hsame ▸ holds_withReg_same h.dest u)
  · have hover : (s.mirrored.withReg i.dest v).status.state = .overflow := by
      rw [hsame, State.afterResult, if_neg hfits]
      rfl
    cases hover.symm.trans (mirrored_withReg_running h.running i.dest v)

/-- R191: `addi ip k ip` adds to its own index. -/
theorem State.Executes.pc_of_relative_jump {k : Int} (h : s.Executes (.addi ip k ip) v t) (hbinds : s.Binds ip) :
    t.pc - 1 = s.pc + k := by
  have hip : s.mirrored.Holds ip s.pc := mirrored_holds_bound hbinds
  rw [h.pc_of_dest_eq hbinds rfl]
  exact h.result_eq (exec_addi_of_holds hip (names_of_holds hip) k)

theorem step_halts_of_outside {s : State} (hrun : s.status.state = .running)
    (hout : s.pc < 0 ∨ (s.cfg.len : Int) ≤ s.pc) : ∃ u, step s = .next u ∧ u.status.state = .halted :=
  ⟨s.halt, step_of_outside hrun (pcOutside_iff.mpr hout), rfl⟩

theorem step_not_halted_of_inside {s u : State} (hrun : s.status.state = .running) (hin : s.pcOutside = false)
    (h : step s = .next u) : u.status.state ≠ .halted := by
  rcases step_running_cases hrun h with ⟨hout, -⟩ | ⟨-, rfl⟩ | ⟨-, i, v, hexec⟩ | ⟨-, -, rfl⟩
  · cases hout.symm.trans hin
  · simp
  · simp [hexec.state_eq]
  · simp

end Executed

/-- Settles O23: the value in the bound register is `pc - 1` of the state after the step, and the next step checks
`pc`. -/
theorem boundRegisterWriteIsAJump : Obligations.BoundRegisterWriteIsAJump := by
  intro s t i ip hcan hi hbinds h hrun
  obtain ⟨v, hexec⟩ := executes_of_fetches hcan hi h hrun
  have hlen : t.cfg.len = s.cfg.len := by rw [hexec.cfg_eq]
  refine ⟨t.pc - 1, hexec.holds_bound hbinds, by omega, hexec.pc_of_dest_ne hbinds, ?_, fun hout => ?_,
    fun hstart => ⟨by omega, fun u hu => ?_⟩, fun hlow hhigh hbudget => ⟨hrun, by omega, by omega, hbudget⟩⟩
  · rintro k rfl
    exact hexec.pc_of_relative_jump hbinds
  · exact step_halts_of_outside hrun (by omega)
  · exact step_not_halted_of_inside hrun (pcOutside_eq_false_iff.mpr (by omega)) hu

/-! ## The idioms of control flow (R82) -/

section Idioms

variable {s : State} {i : Instr} {ip : Nat} (hcan : s.CanRun) (hbinds : s.Binds ip) (hi : s.Fetches i)
include hcan hbinds hi

/-- An instruction whose result `v` fits and goes to the bound register jumps to `v + 1`. -/
theorem step_jumps {v : Int} (hexec : exec i s.mirrored = .next (s.mirrored.afterResult ip v)) (hfits : s.Fits v) :
    step s = .next ((s.withReg ip v).countStep.setPc (v + 1)) := by
  have hmirror : s.mirrored.withReg ip v = s.withReg ip v := by rw [mirrored_of_binds hbinds, withReg_withReg]
  rw [mirrored_afterResult hfits, hmirror] at hexec
  have hholds : (s.withReg ip v).Holds ip v := holds_withReg_same (names_of_binds hbinds) v
  obtain ⟨hvalid, rfl, hlt⟩ := hbinds
  rw [step_eq_finishStep hcan hi (fun _ => hlt) hexec hcan.1]
  exact finishStep_of_bound hvalid hholds

/-- An instruction whose result `v` fits and goes to another register goes on at the next instruction. -/
theorem step_goes_on {k v : Int} (hexec : exec i s.mirrored = .next (s.mirrored.afterResult k v)) (hfits : s.Fits v)
    (hk : 0 ≤ k) (hne : k ≠ ip) : step s = .next ((s.mirrored.withReg k v).countStep.setPc (s.pc + 1)) := by
  rw [mirrored_afterResult hfits] at hexec
  have hholds : (s.mirrored.withReg k v).Holds ip s.pc :=
    holds_withReg_of_ne hk hne.symm (mirrored_holds_bound hbinds) v
  have hrun := mirrored_withReg_running hcan.1 k v
  obtain ⟨hvalid, rfl, hlt⟩ := hbinds
  have hcfg : (s.mirrored.withReg k v).cfg = s.cfg := mirrored_cfg s
  rw [step_eq_finishStep hcan hi (fun _ => hlt) hexec hrun]
  exact finishStep_of_bound (hcfg ▸ hvalid) (hcfg ▸ hholds)

end Idioms

/-- A write of the value a register already holds changes nothing. -/
theorem withReg_of_holds {s : State} {k v : Int} (h : s.Holds k v) : s.withReg k v = s := by
  obtain ⟨hindex, rfl⟩ := List.getElem?_eq_some_iff.mp h.2
  rw [State.withReg, List.set_getElem_self]

/-- Settles O26: each idiom is one of five instructions whose result is written to the bound register, and jumps, or to
another, and goes on. -/
theorem controlFlowIdioms : Obligations.ControlFlowIdioms := by
  intro s ip hcan hbinds
  have hip : s.mirrored.Holds ip s.pc := mirrored_holds_bound hbinds
  have hdest : s.mirrored.Names ip := names_of_holds hip
  have hkept : ∀ {j v : Int}, j ≠ ip → s.Holds j v → s.mirrored.Holds j v :=
    fun hne hj => mirrored_holds_of_ne hbinds hne hj
  refine ⟨fun target b hi hfits => ?_, fun k hi hfits => ?_, fun j v hne hj hi hfits => ?_,
    fun j b v hne hj hi hfits => ?_, fun v b hout hi hfits => ?_, fun j b k v hnej hnek hj hk hfits hi => ?_,
    fun v b k hne hk hfits hi => ?_, fun k b v hne hk hfits hi => ?_, fun b hi hfits => ?_⟩
  · have hexec := exec_seti_of_names hdest (target - 1) b
    exact ⟨_, step_jumps hcan hbinds hi hexec hfits, sub_add_cancel target 1⟩
  · have hexec := exec_addi_of_holds hip hdest k
    exact ⟨_, step_jumps hcan hbinds hi hexec hfits, rfl⟩
  · have hpc : s.pc + v + 1 = s.pc + 1 + v := by ring
    rcases hi with hi | hi
    · have hexec := exec_addr_of_holds (hkept hne hj) hip hdest
      rw [add_comm v] at hexec
      exact ⟨_, step_jumps hcan hbinds hi hexec hfits, hpc⟩
    · have hexec := exec_addr_of_holds hip (hkept hne hj) hdest
      exact ⟨_, step_jumps hcan hbinds hi hexec hfits, hpc⟩
  · have hexec := exec_setr_of_holds (hkept hne hj) hdest b
    exact ⟨_, step_jumps hcan hbinds hi hexec hfits, rfl⟩
  · have hexec := exec_seti_of_names hdest v b
    have hrun : ((s.withReg ip v).countStep.setPc (v + 1)).status.state = .running := hcan.1
    have hleft : v + 1 < 0 ∨ (s.cfg.len : Int) ≤ v + 1 := by omega
    obtain ⟨u, hu, hhalted⟩ := step_halts_of_outside hrun hleft
    exact ⟨_, u, step_jumps hcan hbinds hi hexec hfits, hu, hhalted⟩
  · have hexec := exec_setr_of_holds (hkept hnej hj) (mirrored_names hk) b
    exact ⟨_, step_goes_on hcan hbinds hi hexec hfits hk.1 hnek, holds_withReg_same (mirrored_names hk) v, rfl⟩
  · have hexec := exec_seti_of_names (mirrored_names hk) v b
    exact ⟨_, step_goes_on hcan hbinds hi hexec hfits hk.1 hne, holds_withReg_same (mirrored_names hk) v, rfl⟩
  · have hk' : s.mirrored.Holds k v := hkept hne hk
    have hregs : (s.mirrored.withReg k v).regs = s.mirrored.regs := by rw [withReg_of_holds hk']
    rcases hi with hi | hi
    · have hexec := exec_setr_of_holds hk' (names_of_holds hk') b
      exact ⟨_, step_goes_on hcan hbinds hi hexec hfits hk.1 hne, hregs, rfl⟩
    · have hexec := exec_addi_of_holds hk' (names_of_holds hk') 0
      rw [add_zero] at hexec
      exact ⟨_, step_goes_on hcan hbinds hi hexec hfits hk.1 hne, hregs, rfl⟩
  · have hexec := exec_setr_of_holds hip hdest b
    have hregs : (s.withReg ip s.pc).regs = s.mirrored.regs := by rw [mirrored_of_binds hbinds]
    exact ⟨_, step_jumps hcan hbinds hi hexec hfits, hregs, rfl⟩

/-! ## The overflow (R216) -/

/-- Settles O27: an instruction that ends in `OVERFLOW` changed `STATUS` alone, and the step ends with it. -/
theorem overflowIsPreciseAndTerminal : Obligations.OverflowIsPreciseAndTerminal := by
  intro s t i hcan hi hbinding hexec hover
  have hstep : step s = .next t := step_of_exec_ended hcan hi hbinding hexec (by simp [hover])
  obtain ⟨-, ⟨v, rfl⟩ | rfl⟩ := exec_next_cases hexec
  · cases hover.symm.trans (mirrored_withReg_running hcan.1 i.dest v)
  · have hpc : s.mirrored.pc = s.pc := mirrored_pc s
    have hresult : s.mirrored.overflow.result = some (.overflow ⟨16, s.mirrored.pc, .result⟩) := rfl
    rw [hpc] at hresult
    exact ⟨hstep, rfl, by simp, hpc, hresult, rfl⟩

end Sys2Proof.Machine

/-! PROOFS. The records a launch accepts (R77, R79), and the inputs it accepts (R244): the launch checks say exactly what
the requirements on the caller say. -/

namespace Sys2Proof.Machine

/-! ## Records -/

/-- Settles O1: each record is the encoding of the table's instruction, and opcode `0x10` is past the sixteen. -/
theorem decodesTheRecordsOfTheTable : Obligations.DecodesTheRecordsOfTheTable :=
  ⟨decode_encode (.addr 4 5 2), decode_encode (.addi 4 (-5) 2), decode_encode (.mulr 4 5 2),
    decode_encode (.muli 4 (-5) 2), decode_encode (.banr 4 5 2), decode_encode (.bani 4 (-5) 2),
    decode_encode (.borr 4 5 2), decode_encode (.bori 4 (-5) 2), decode_encode (.setr 4 999 2),
    decode_encode (.seti (-42) 999 2), decode_encode (.gtrr 4 5 2), decode_encode (.gtri 4 (-5) 2),
    decode_encode (.gtir (-4) 5 2), decode_encode (.eqrr 4 5 2), decode_encode (.eqri 4 (-5) 2),
    decode_encode (.eqir (-4) 5 2), decode_of_le (r := ⟨0x10#8, 0, 0, 0⟩) (by decide)⟩

theorem recordError_eq_none_iff {nreg : Nat} {w : RegWidth} {r : Record} :
    recordError nreg w r = none ↔ ∃ i : Instr, i.wellFormed nreg w = true ∧ encode i = r := by
  constructor
  · intro hpass
    obtain ⟨i, -, rfl⟩ | ⟨hop, -⟩ := decode_cases r
    · rw [recordError_encode] at hpass
      exact ⟨i, instrError_eq_none_iff.mp hpass, rfl⟩
    · rw [recordError_of_le hop] at hpass
      cases hpass
  · rintro ⟨i, hwf, rfl⟩
    rw [recordError_encode]
    exact instrError_eq_none_iff.mpr hwf

/-- Settles O3: the decoder inverts the encoder, and so the check of a record is the check of the instruction it
encodes. -/
theorem encodingsAreWhatTheLaunchAccepts : Obligations.EncodingsAreWhatTheLaunchAccepts :=
  ⟨decode_encode, fun _ _ _ => recordError_eq_none_iff⟩

/-! ## Launch inputs -/

/-- The checks of a launch pass on nothing but what the caller must provide. -/
theorem acceptable_of_launchError_eq_none {inp : LaunchInputs} {w : RegWidth} (h : launchError w inp = none) :
    inp.Acceptable w := by
  obtain ⟨hpos, hlen, hbound, hinit, hprog⟩ := launchError_none h
  refine ⟨hpos, hlen, fun ip hip => ?_, List.all_eq_true.mp hinit, fun r hr => ?_⟩
  · have hfile : inFile inp.nreg.toNat ip = true := by simpa [ipbBad, Option.mem_def.mp hip] using hbound
    exact inFile_toNat_iff.mp hfile
  · exact recordError_eq_none_iff.mp (recordError_none_of_programError_none hprog r hr)

/-- All that a launch can do, by the requirements on the caller. -/
theorem launch_cases_acceptable (inp : LaunchInputs) (s : State) :
    (inp.Acceptable s.cfg.regWidth ∧ launch inp s = acceptLaunch inp s) ∨
    (¬ inp.Acceptable s.cfg.regWidth ∧ ∃ code index field,
      launchError s.cfg.regWidth inp = some (code, index, field) ∧ launch inp s = refuseLaunch code index field s) := by
  by_cases hacc : inp.Acceptable s.cfg.regWidth
  · exact .inl ⟨hacc, launch_of_acceptable hacc⟩
  · rcases launch_cases inp s with ⟨hpass, -⟩ | hrefused
    · exact absurd (acceptable_of_launchError_eq_none hpass) hacc
    · exact .inr ⟨hacc, hrefused⟩

/-! ## The codes a launch reports -/

/-- The codes of the checks of one record (R77). -/
def ErrCode.OfRecord (code : ErrCode) : Prop :=
  code = .opcode ∨ code = .destRange ∨ code = .srcRange ∨ code = .immRange

theorem ofRecord_of_instrError {nreg : Nat} {w : RegWidth} {i : Instr} {code : ErrCode} {field : ErrField}
    (h : instrError nreg w i = some (code, field)) : code.OfRecord := by
  unfold instrError at h
  split_ifs at h <;> cases h <;> simp [ErrCode.OfRecord]

theorem ofRecord_of_recordError {nreg : Nat} {w : RegWidth} {r : Record} {code : ErrCode} {field : ErrField}
    (h : recordError nreg w r = some (code, field)) : code.OfRecord := by
  obtain ⟨i, -, rfl⟩ | ⟨hop, -⟩ := decode_cases r
  · rw [recordError_encode] at h
    exact ofRecord_of_instrError h
  · rw [recordError_of_le hop] at h
    cases h
    exact .inl rfl

theorem ofRecord_of_programError {nreg : Nat} {w : RegWidth} {k : Nat} {prog : List Record} {code : ErrCode}
    {index : Int} {field : ErrField} (h : programError nreg w k prog = some (code, index, field)) :
    code.OfRecord := by
  induction prog generalizing k with
  | nil => cases h
  | cons r rest ih =>
    unfold programError at h
    split at h
    next hr =>
      cases h
      exact ofRecord_of_recordError hr
    next => exact ih h

/-- R212: the code of a launch's first failing check is one of the codes 1 to 3 or a record's, and code 1 comes with the
field of check 1. -/
theorem launchError_code_cases {w : RegWidth} {inp : LaunchInputs} {code : ErrCode} {index : Int} {field : ErrField}
    (h : launchError w inp = some (code, index, field)) :
    (code = .regCount ∧ regCountError inp = some field) ∨ code = .ipbRange ∨ code = .initRange ∨ code.OfRecord := by
  unfold launchError at h
  split at h
  next hcount =>
    cases h
    exact .inl ⟨rfl, hcount⟩
  next =>
    split_ifs at h
    · cases h
      exact .inr (.inl rfl)
    · cases h
      exact .inr (.inr (.inl rfl))
    · exact .inr (.inr (.inr (ofRecord_of_programError h)))

theorem regCountError_cause {inp : LaunchInputs} {field : ErrField} (h : regCountError inp = some field) :
    (field = .nreg ∧ inp.nreg < 1) ∨ (field = .init ∧ (inp.init.length : Int) ≠ inp.nreg) := by
  unfold regCountError at h
  split_ifs at h with hpos hboth hlen <;> cases h
  · exact .inr ⟨rfl, hboth.1⟩
  · exact .inl ⟨rfl, hpos⟩
  · exact .inr ⟨rfl, hlen⟩

/-- R212: code 1 is recorded with a field whose cause holds. -/
theorem regCount_cause_of_launchError {w : RegWidth} {inp : LaunchInputs} {index : Int} {field : ErrField}
    (h : launchError w inp = some (.regCount, index, field)) :
    (field = .nreg ∧ inp.nreg < 1) ∨ (field = .init ∧ (inp.init.length : Int) ≠ inp.nreg) := by
  rcases launchError_code_cases h with ⟨-, hcount⟩ | h | h | h
  · exact regCountError_cause hcount
  · cases h
  · cases h
  · simp [ErrCode.OfRecord] at h

theorem launchError_code_ne {w : RegWidth} {inp : LaunchInputs} {code : ErrCode} {index : Int} {field : ErrField}
    (h : launchError w inp = some (code, index, field)) : code ≠ .noError ∧ code ≠ .overflow := by
  rcases launchError_code_cases h with ⟨rfl, -⟩ | rfl | rfl | hcode
  · decide
  · decide
  · decide
  · rcases hcode with rfl | rfl | rfl | rfl <;> decide

/-- Settles O33: the launch checks pass exactly for acceptable inputs, and a failing one refuses the launch with a code
whose cause holds. -/
theorem launchRunsExactlyWhatIsAcceptable : Obligations.LaunchRunsExactlyWhatIsAcceptable := by
  intro inp s
  rcases launch_cases_acceptable inp s with ⟨hacc, hl⟩ | ⟨hacc, code, index, field, herr, hl⟩
  · rw [hl]
    exact ⟨iff_of_true rfl hacc, fun hnot => absurd hacc hnot⟩
  · rw [hl]
    refine ⟨iff_of_false (by simp) hacc, fun _ => ⟨rfl, rfl, rfl, code, index, field, rfl, ?_⟩⟩
    rintro rfl
    exact regCount_cause_of_launchError herr

end Sys2Proof.Machine

/-! PROOFS. The invariant of the machine: each operation of a step keeps it, a launch establishes it, and under it no step
faults. -/

namespace Sys2Proof.Machine

/-! ## The registers stay in range -/

theorem forall_mem_withReg {p : Int → Prop} {s : State} (hregs : ∀ u ∈ s.regs, p u) {v : Int} (hv : p v) (c : Int) :
    ∀ u ∈ (s.withReg c v).regs, p u := by
  intro u hu
  rcases List.mem_or_eq_of_mem_set hu with hold | rfl
  · exact hregs u hold
  · exact hv

theorem forall_mem_mirrored {p : Int → Prop} {s : State} (hregs : ∀ u ∈ s.regs, p u) (hpc : p s.pc) :
    ∀ u ∈ s.mirrored.regs, p u := by
  unfold State.mirrored
  split
  · exact forall_mem_withReg hregs hpc _
  · exact hregs

/-- Log entry 6: the index that the mirror writes is in range. -/
theorem State.Inv.pc_fits {s : State} (hs : s.Inv) (hcan : s.CanRun) : s.Fits s.pc := by
  obtain ⟨-, hnonneg, hlt, -⟩ := hcan
  obtain ⟨k, hk⟩ := Int.eq_ofNat_of_zero_le hnonneg
  have hfits := hs.indices_fit k (by omega)
  rwa [← hk] at hfits

/-! ## Each operation of a step keeps the invariant -/

theorem State.Inv.finalRegs_eq_none {s : State} (hs : s.Inv) (hend : s.status.state ≠ .halted) : s.finalRegs = none := by
  rw [hs.final, if_neg hend]

theorem State.Inv.halt {s : State} (hs : s.Inv) (hrun : s.status.state = .running) (hout : s.pcOutside = true) :
    s.halt.Inv :=
  { hs with
    no_error := fun _ => hs.no_error (.inl hrun)
    overflow_error := fun h => by cases h
    load_error := fun h => by cases h
    final := rfl
    halted_outside := fun _ => pcOutside_iff.mp hout
    bound_value := fun hvalid hsteps _ => hs.bound_value hvalid hsteps (by simp [hrun]) }

theorem State.Inv.exhaustBudget {s : State} (hs : s.Inv) (hrun : s.status.state = .running) : s.exhaustBudget.Inv :=
  { hs with
    no_error := fun _ => hs.no_error (.inl hrun)
    overflow_error := fun h => by cases h
    load_error := fun h => by cases h
    final := hs.finalRegs_eq_none (by simp [hrun])
    halted_outside := fun h => by cases h
    bound_value := fun hvalid hsteps _ => hs.bound_value hvalid hsteps (by simp [hrun]) }

theorem storeWf_congr {s t : State} (hprog : t.prog = s.prog) (hcfg : t.cfg = s.cfg) : t.storeWf = s.storeWf := by
  rw [State.storeWf, State.storeWf, hprog, hcfg]

/-- R216: the overflow keeps the mirror's write, which is an index in range. -/
theorem State.Inv.overflow {s : State} (hs : s.Inv) (hcan : s.CanRun) (hwidth : s.cfg.regWidth ≠ .unbounded) :
    s.mirrored.overflow.Inv where
  width := by simpa using hs.width
  nreg_pos := by simpa using hs.nreg_pos
  file := by simpa using hs.file
  store := (storeWf_congr (mirrored_prog s) (mirrored_cfg s)).trans hs.store
  binding := by simpa using hs.binding
  regs_fit := by simpa using forall_mem_mirrored hs.regs_fit (hs.pc_fits hcan)
  indices_fit := by simpa using hs.indices_fit
  budget := by simpa using hs.budget
  no_error := by simp
  overflow_error := by simpa using hwidth
  load_error := by simp
  final := by simpa using hs.finalRegs_eq_none (by simp [hcan.1])
  halted_outside := by simp
  bound_value := by simp

/-- An executed instruction writes a result in range, counts within the budget, and leaves a bound register one behind
`pc`. -/
theorem State.Inv.executes {s t : State} {i : Instr} {v : Int} (hs : s.Inv) (hcan : s.CanRun) (h : s.Executes i v t) :
    t.Inv where
  width := by simpa [h.cfg_eq] using hs.width
  nreg_pos := by simpa [h.cfg_eq] using hs.nreg_pos
  file := by simpa [h.cfg_eq, h.regs_eq] using hs.file
  store := (storeWf_congr h.prog_eq h.cfg_eq).trans hs.store
  binding := by simpa [h.cfg_eq] using hs.binding
  regs_fit := by
    rw [h.regs_eq, h.cfg_eq]
    exact forall_mem_withReg (forall_mem_mirrored hs.regs_fit (hs.pc_fits hcan)) h.fits _
  indices_fit := by simpa [h.cfg_eq] using hs.indices_fit
  budget := by
    intro b hb
    rw [h.stepBudget_eq] at hb
    have hwithin : s.status.steps ≤ b := hs.budget b hb
    have hunused : b ≠ s.status.steps := by
      rintro rfl
      exact hcan.2.2.2 hb
    rw [h.steps_eq]
    omega
  no_error := by simpa [h.status_eq] using hs.no_error
  overflow_error := by simp [h.state_eq]
  load_error := by simp [h.state_eq]
  final := by simpa [h.state_eq, h.finalRegs_eq] using hs.finalRegs_eq_none (by simp [hcan.1])
  halted_outside := by simp [h.state_eq]
  bound_value := fun hvalid _ _ => by
    rw [h.cfg_eq] at hvalid ⊢
    exact h.bound hvalid

/-- Settles O40: each of the operations that a step can be keeps the invariant. -/
theorem stepKeepsTheInvariant : Obligations.StepKeepsTheInvariant := by
  intro s t hs h
  by_cases hrun : s.status.state = .running
  · rcases step_running_cases hrun h with ⟨hout, rfl⟩ | ⟨-, rfl⟩ | ⟨hcan, i, v, hexec⟩ | ⟨hcan, hwidth, rfl⟩
    · exact hs.halt hrun hout
    · exact hs.exhaustBudget hrun
    · exact hs.executes hcan hexec
    · exact hs.overflow hcan hwidth
  · rw [step_of_not_running hrun] at h
    cases h
    exact hs

/-! ## A launch establishes the invariant -/

theorem acceptLaunch_inv {inp : LaunchInputs} {s : State} (hw : s.cfg.regWidth.legal = true)
    (hacc : inp.Acceptable s.cfg.regWidth) (hindices : ∀ k < inp.prog.length, inRange s.cfg.regWidth (k : Int) = true) :
    (acceptLaunch inp s).Inv where
  width := hw
  nreg_pos := by
    have := hacc.nreg_pos
    rw [acceptLaunch_nreg]
    omega
  file := by
    have := hacc.init_length
    rw [acceptLaunch_nreg, acceptLaunch_regs]
    omega
  store := by
    have hpass : ∀ r ∈ inp.prog, recordError inp.nreg.toNat s.cfg.regWidth r = none :=
      fun r hr => recordError_eq_none_iff.mpr (hacc.prog r hr)
    simpa [State.storeWf] using hpass
  binding := by
    intro hvalid
    have hlen := hacc.init_length
    have hlt := (checked_acceptLaunch hacc).binding hvalid
    rw [acceptLaunch_regs] at hlt
    rw [acceptLaunch_nreg]
    omega
  regs_fit := hacc.init_fit
  indices_fit := hindices
  budget := fun _ _ => Nat.zero_le _
  no_error := fun _ => ⟨rfl, rfl⟩
  overflow_error := fun h => by cases h
  load_error := fun h => by cases h
  final := rfl
  halted_outside := fun h => by cases h
  bound_value := by simp

/-- A refused launch changes `STATUS` and the final registers, and both as the invariant asks. -/
theorem refuseLaunch_inv {s : State} {code : ErrCode} (hs : s.Inv) (hcode : code ≠ .noError ∧ code ≠ .overflow)
    (index : Int) (field : ErrField) : (refuseLaunch code index field s).Inv :=
  { hs with
    budget := fun _ _ => Nat.zero_le _
    no_error := by simp
    overflow_error := by simp
    load_error := fun _ => ⟨hcode.1, hcode.2, rfl⟩
    final := rfl
    halted_outside := by simp
    bound_value := by simp }

/-- Settles O42: an accepted launch establishes the invariant, and a refused one keeps it. -/
theorem launchKeepsTheInvariant : Obligations.LaunchKeepsTheInvariant := by
  intro inp s hs hindices
  rcases launch_cases_acceptable inp s with ⟨hacc, hl⟩ | ⟨-, code, index, field, herr, hl⟩
  · rw [hl]
    exact acceptLaunch_inv hs.width hacc hindices
  · rw [hl]
    exact refuseLaunch_inv hs (launchError_code_ne herr) index field

/-! ## What follows from the invariant -/

theorem State.Inv.checked {s : State} (hs : s.Inv) : s.Checked := by
  have hstore := hs.store
  simp only [State.storeWf, Bool.and_eq_true, decide_eq_true_eq, List.all_eq_true, Option.isNone_iff_eq_none,
    recordError_eq_none_iff] at hstore
  obtain ⟨hlen, hprog⟩ := hstore
  refine ⟨hlen, ?_, ?_⟩
  · rwa [hs.file]
  · rw [State.BindingOk, hs.file]
    exact hs.binding

/-- Settles O43: the invariant has all that the launch checks, which excludes every fault. -/
theorem invariantExcludesFaults : Obligations.InvariantExcludesFaults := fun _ hs => hs.checked.exists_step

/-! ## Reset is a launch -/

/-- The launch inputs of the model's reset state (log entry 1). -/
theorem reset_inputs_acceptable :
    ({ prog := [], ipb := none, nreg := 6, init := [0, 0, 0, 0, 0, 0] } : LaunchInputs).Acceptable .unbounded where
  nreg_pos := by decide
  init_length := rfl
  ipb := by simp
  init_fit := fun _ _ => rfl
  prog := by simp

/-- Settles O44: the launch is accepted, and sets every field as reset has it but for the two free values. -/
theorem resetIsALaunchOfTheEmptyProgram : Obligations.ResetIsALaunchOfTheEmptyProgram := by
  intro s hw
  have hacc := reset_inputs_acceptable
  rw [← hw] at hacc
  refine ⟨Config.freeIpbIdx s.launches, Config.freeErrIndex s.launches, ?_⟩
  rw [launch_of_acceptable hacc]
  simp [acceptLaunch, State.reset, hw]

/-- Settles O41: the empty program is well-formed, nothing is bound, and no instruction has been executed. -/
theorem resetMeetsTheInvariant : Obligations.ResetMeetsTheInvariant where
  width := rfl
  nreg_pos := by decide
  file := rfl
  store := reset_storeWf
  binding := fun h => by cases h
  regs_fit := fun _ _ => rfl
  indices_fit := fun _ _ => rfl
  budget := fun _ h => by cases h
  no_error := fun _ => ⟨rfl, rfl⟩
  overflow_error := fun h => by cases h
  load_error := fun h => by cases h
  final := rfl
  halted_outside := fun h => by cases h
  bound_value := fun h => by cases h

end Sys2Proof.Machine

/-! PROOFS. The outputs of the block and the result of the run, in each run state (R34, R197). -/

namespace Sys2Proof.Machine

section Ports

variable {s : State}

theorem outcomePort_of_ended (h : s.status.state ≠ .running) : s.outcomePort = some s.status.state :=
  outcomePort_eq_some_iff.mpr ⟨h, rfl⟩

theorem stepsPort_of_ended (h : s.status.state ≠ .running) : s.stepsPort = some s.status.steps :=
  stepsPort_eq_some_iff.mpr ⟨h, rfl⟩

theorem finalRegsPort_of_halted (h : s.status.state = .halted) : s.finalRegsPort = s.finalRegs := by
  simp [State.finalRegsPort, h]

theorem finalRegsPort_of_not_halted (h : s.status.state ≠ .halted) : s.finalRegsPort = none := by
  refine Option.eq_none_iff_forall_not_mem.mpr fun x hx => ?_
  exact h (finalRegsPort_eq_some_iff.mp hx).1

/-- `ERR` of a machine in one of the two error outcomes: the code's number, the index and the field. -/
theorem errPort_of_error (h : s.status.state = .loadError ∨ s.status.state = .overflow) :
    s.errPort = some ⟨s.status.errCode.number, s.status.errIndex, s.status.errField⟩ :=
  errPort_eq_some_iff.mpr ⟨h, rfl⟩

theorem errPort_of_no_error (h : ¬ (s.status.state = .loadError ∨ s.status.state = .overflow)) : s.errPort = none :=
  Option.eq_none_iff_forall_not_mem.mpr fun _ hx => h (errPort_eq_some_iff.mp hx).1

theorem result_of_halted (h : s.status.state = .halted) : s.result = s.finalRegs.map .halted := by
  simp [State.result, outcomePort_of_ended, finalRegsPort_of_halted, h]

theorem State.Inv.finalRegs_of_halted (hs : s.Inv) (h : s.status.state = .halted) : s.finalRegs = some s.regs := by
  rw [hs.final, if_pos h]

end Ports

/-- Settles O39: each output is defined in the run states that R34 gives it, and the result is put together from them. -/
theorem hostSeesOnlyTheResult : Obligations.HostSeesOnlyTheResult := by
  intro s
  refine ⟨fun h => ?_, fun h => ⟨outcomePort_of_ended h, stepsPort_of_ended h⟩, fun h => ?_, fun h => ?_, fun h => ?_,
    fun h => ?_, rfl⟩
  · have houtcome : s.outcomePort = none := by simp [State.outcomePort, h]
    exact ⟨houtcome, by simp [State.stepsPort, h], finalRegsPort_of_not_halted (by simp [h]),
      errPort_of_no_error (by simp [h]), by simp [State.result, houtcome]⟩
  · have hfinal := finalRegsPort_of_halted h
    exact ⟨hfinal, fun hs => hfinal.trans (hs.finalRegs_of_halted h), errPort_of_no_error (by simp [h]),
      result_of_halted h⟩
  · exact ⟨finalRegsPort_of_not_halted (by simp [h]), errPort_of_no_error (by simp [h]),
      by simp [State.result, outcomePort_of_ended, h]⟩
  · have herr := errPort_of_error (.inl h)
    exact ⟨finalRegsPort_of_not_halted (by simp [h]), herr, by simp [State.result, outcomePort_of_ended, herr, h]⟩
  · have herr := errPort_of_error (.inr h)
    exact ⟨finalRegsPort_of_not_halted (by simp [h]), herr, by simp [State.result, outcomePort_of_ended, herr, h]⟩

end Sys2Proof.Machine

/-! PROOFS. Runs from an accepted launch: the first step (R35, R242), the straight run with no bound register (R190), and
the bound register at the end (R192). -/

namespace Sys2Proof.Machine

/-! ## The first step -/

theorem step_acceptLaunch_of_outside {inp : LaunchInputs}
    (hout : inp.entryPc < 0 ∨ (inp.prog.length : Int) ≤ inp.entryPc) (s : State) :
    step (acceptLaunch inp s) = .next (acceptLaunch inp s).halt :=
  step_of_outside rfl (pcOutside_iff.mpr hout)

theorem acceptLaunch_binds {inp : LaunchInputs} {s : State} {ip : Int} (hacc : inp.Acceptable s.cfg.regWidth)
    (hip : inp.ipb = some ip) : (acceptLaunch inp s).Binds ip.toNat := by
  have hvalid : (acceptLaunch inp s).cfg.ipbValid = true := by simp [hip]
  have hidx := acceptLaunch_ipbIdx_of_some hip s
  exact ⟨hvalid, hidx, hidx ▸ (checked_acceptLaunch hacc).binding hvalid⟩

/-- Settles O34: the halt check of the first step takes the launch's register file. -/
theorem outOfRangeEntryHaltsAtOnce : Obligations.OutOfRangeEntryHaltsAtOnce := by
  intro inp s hacc hout
  rw [launch_of_acceptable hacc]
  exact ⟨_, step_acceptLaunch_of_outside hout s, rfl, rfl⟩

/-- Settles O31: a first step that fetches mirrors `pc` over the launch value, and one that does not halts with it. -/
theorem launchValueOfTheBoundRegister : Obligations.LaunchValueOfTheBoundRegister := by
  intro inp s ip hacc hip
  rw [launch_of_acceptable hacc]
  refine ⟨rfl, fun hnonneg hlt hbudget v => ?_, fun hout => ?_⟩
  · have hcan : (acceptLaunch inp s).CanRun := ⟨rfl, hnonneg, hlt, hbudget⟩
    have hcast : (ip.toNat : Int) = ip := Int.toNat_of_nonneg (hacc.ipb ip hip).1
    have hstep := step_withReg_of_binds hcan (acceptLaunch_binds hacc hip) v
    rwa [hcast] at hstep
  · exact ⟨_, inp.init, step_acceptLaunch_of_outside hout s, rfl, rfl⟩

/-! ## The run with no bound register -/

theorem runSteps_one {s t : State} (h : step s = .next t) : runSteps 1 s = .next t :=
  runSteps_succ_of_step h 0

/-- R190: with no bound register each executed instruction brings `pc` one nearer to the end, so that the run ends. -/
theorem exists_runSteps_ended {s : State} (hchecked : s.Checked) (hunbound : s.cfg.ipbValid = false) (n : Nat)
    (hn : (s.cfg.len : Int) - s.pc ≤ n) : ∃ k t, runSteps k s = .next t ∧ t.status.state ≠ .running := by
  induction n generalizing s with
  | zero =>
    by_cases hrun : s.status.state = .running
    · obtain ⟨u, hu, hhalted⟩ := step_halts_of_outside hrun (.inr (by omega))
      exact ⟨1, u, runSteps_one hu, by simp [hhalted]⟩
    · exact ⟨0, s, rfl, hrun⟩
  | succ n ih =>
    obtain ⟨u, hu⟩ := hchecked.exists_step
    by_cases hrun : s.status.state = .running ∧ u.status.state = .running
    · obtain ⟨i, v, hexec⟩ := exists_executes_of_running hu hrun.1 hrun.2
      have hpc := hexec.pc_of_unbound hunbound
      obtain ⟨k, t, ht, hend⟩ := ih (hchecked.of_sameSetup (step_sameSetup hu)) (by rw [hexec.cfg_eq, hunbound])
        (by rw [hexec.cfg_eq]; omega)
      exact ⟨k + 1, t, (runSteps_succ_of_step hu k).trans ht, hend⟩
    · by_cases hs : s.status.state = .running
      · exact ⟨1, u, runSteps_one hu, fun hu' => hrun ⟨hs, hu'⟩⟩
      · exact ⟨0, s, rfl, hs⟩

/-- A running machine whose run can end by leaving the program alone: an accepted program, no bound register, no budget,
and no range to overflow. -/
structure State.Straight (s : State) : Prop where
  /-- The launch's checks have passed. -/
  checked : s.Checked
  /-- The machine runs. -/
  running : s.status.state = .running
  /-- No register is bound. -/
  unbound : s.cfg.ipbValid = false
  /-- No result is out of range. -/
  width : s.cfg.regWidth = .unbounded
  /-- No budget is set. -/
  budget : s.stepBudget = none

/-- Inside the program such a machine executes the instruction at `pc` and goes to the next. -/
theorem State.Straight.exists_step {s : State} (hs : s.Straight) (hin : s.pcOutside = false) :
    ∃ t, step s = .next t ∧ t.Straight ∧ t.cfg = s.cfg ∧ t.pc = s.pc + 1 ∧ t.status.steps = s.status.steps + 1 := by
  obtain ⟨t, ht⟩ := hs.checked.exists_step
  rcases step_running_cases hs.running ht with ⟨hout, -⟩ | ⟨hused, -⟩ | ⟨-, i, v, hexec⟩ | ⟨-, hwidth, -⟩
  · cases hout.symm.trans hin
  · cases hs.budget.symm.trans hused
  · have hcfg := hexec.cfg_eq
    exact ⟨t, ht, ⟨hs.checked.of_sameSetup (step_sameSetup ht), hexec.state_eq, hcfg ▸ hs.unbound, hcfg ▸ hs.width,
      hexec.stepBudget_eq.trans hs.budget⟩, hcfg, hexec.pc_of_unbound hs.unbound, hexec.steps_eq⟩
  · exact absurd hs.width hwidth

/-- R190: as long as the program lasts, `j` steps execute `j` instructions in order. -/
theorem State.Straight.exists_runSteps {s : State} (hs : s.Straight) (j : Nat)
    (hin : 0 < j → 0 ≤ s.pc ∧ s.pc + j ≤ (s.cfg.len : Int)) :
    ∃ t, runSteps j s = .next t ∧ t.Straight ∧ t.cfg = s.cfg ∧ t.pc = s.pc + j ∧
      t.status.steps = s.status.steps + j := by
  induction j generalizing s with
  | zero => exact ⟨s, rfl, hs, rfl, by simp, rfl⟩
  | succ j ih =>
    obtain ⟨hnonneg, hlast⟩ := hin (Nat.succ_pos j)
    have hinside : s.pcOutside = false := pcOutside_eq_false_iff.mpr (by omega)
    obtain ⟨u, hu, hstraight, hcfg, hpc, hsteps⟩ := hs.exists_step hinside
    obtain ⟨t, ht, htstraight, htcfg, htpc, htsteps⟩ := ih hstraight fun _ => by rw [hcfg, hpc]; omega
    refine ⟨t, (runSteps_succ_of_step hu j).trans ht, htstraight, htcfg.trans hcfg, ?_, ?_⟩
    · rw [htpc, hpc]
      push_cast
      ring
    · omega

theorem runSteps_succ_of_runSteps {k : Nat} {s t u : State} (h : runSteps k s = .next t) (hu : step t = .next u) :
    runSteps (k + 1) s = .next u := by
  rw [runSteps_add, h]
  exact runSteps_one hu

/-- Settles O36: an unbound run comes nearer to the end at each step; where nothing else can end it, it executes each
instruction from the entry on and halts past the last. -/
theorem unboundRunGoesStraightOnAndEnds : Obligations.UnboundRunGoesStraightOnAndEnds := by
  intro inp s hacc hipb
  rw [launch_of_acceptable hacc]
  have hchecked := checked_acceptLaunch hacc
  have hunbound : (acceptLaunch inp s).cfg.ipbValid = false := by simp [hipb]
  refine ⟨exists_runSteps_ended hchecked hunbound ((inp.prog.length : Int) - inp.entryPc).toNat ?_,
    fun hwidth hbudget n hn => ?_⟩
  · rw [acceptLaunch_len, acceptLaunch_pc]
    exact Int.self_le_toNat _
  · have hstraight : (acceptLaunch inp s).Straight := ⟨hchecked, rfl, hunbound, hwidth, hbudget⟩
    have hrun : ∀ j ≤ n, ∃ t, runSteps j (acceptLaunch inp s) = .next t ∧ t.Straight ∧
        t.cfg = (acceptLaunch inp s).cfg ∧ t.pc = inp.entryPc + j ∧ t.status.steps = j := by
      intro j hj
      simpa using hstraight.exists_runSteps j fun hpos => by
        rw [acceptLaunch_pc, acceptLaunch_len]
        split at hn <;> omega
    refine ⟨fun j hj => ?_, ?_⟩
    · obtain ⟨t, ht, htstraight, -, hpc, hsteps⟩ := hrun j hj
      exact ⟨t, ht, htstraight.running, hpc, hsteps⟩
    · obtain ⟨t, ht, htstraight, hcfg, hpc, hsteps⟩ := hrun n le_rfl
      have hout : t.pcOutside = true := by
        rw [pcOutside_iff, hcfg, hpc, acceptLaunch_len]
        split at hn <;> omega
      exact ⟨t.halt, runSteps_succ_of_runSteps ht (step_of_outside htstraight.running hout), rfl, hsteps⟩

/-! ## The bound register at the end of a run -/

/-- What holds at the start and is kept by each step holds after a run. -/
theorem runSteps_keeps {p : State → Prop} (hstep : ∀ s t, p s → step s = .next t → p t) {k : Nat} {s t : State}
    (hs : p s) (h : runSteps k s = .next t) : p t := by
  induction k generalizing s with
  | zero =>
    cases h
    exact hs
  | succ k ih =>
    obtain ⟨u, hu, hrest⟩ := runSteps_succ_next h
    exact ih (hstep s u hs hu) hrest

/-- What a run that started with the register file `x` and the configuration `c` has done with its bound register, as
long as it runs and when it has halted (R187, R192). -/
structure State.BoundHistory (x : List Int) (c : Cfg) (s : State) : Prop where
  /-- The configuration stays. -/
  cfg : s.cfg = c
  /-- Before the first executed instruction the register file is the initial one. -/
  initial : s.status.state = .running ∨ s.status.state = .halted → s.status.steps = 0 → s.regs = x
  /-- After an executed instruction the bound register holds `pc - 1`. -/
  bound : s.status.state = .running ∨ s.status.state = .halted → 0 < s.status.steps → s.Holds c.ipbIdx (s.pc - 1)
  /-- A halted machine left the program, and shows its register file. -/
  halted : s.status.state = .halted → s.pcOutside = true ∧ s.finalRegs = some s.regs

theorem State.BoundHistory.step {x : List Int} {c : Cfg} (hvalid : c.ipbValid = true) {s t : State}
    (hs : s.BoundHistory x c) (h : step s = .next t) : t.BoundHistory x c := by
  by_cases hrun : s.status.state = .running
  · rcases step_running_cases hrun h with ⟨hout, rfl⟩ | ⟨-, rfl⟩ | ⟨-, i, v, hexec⟩ | ⟨-, -, rfl⟩
    · exact ⟨hs.cfg, fun _ => hs.initial (.inl hrun), fun _ => hs.bound (.inl hrun), fun _ => ⟨hout, rfl⟩⟩
    · exact ⟨hs.cfg, by simp, by simp, by simp⟩
    · have hcfg : s.cfg = c := hs.cfg
      subst hcfg
      exact ⟨hexec.cfg_eq, by simp [hexec.steps_eq], fun _ _ => hexec.bound hvalid, by simp [hexec.state_eq]⟩
    · exact ⟨(mirrored_cfg s).trans hs.cfg, by simp, by simp, by simp⟩
  · rw [step_of_not_running hrun] at h
    cases h
    exact hs

theorem acceptLaunch_boundHistory (inp : LaunchInputs) (s : State) :
    (acceptLaunch inp s).BoundHistory inp.init (acceptLaunch inp s).cfg :=
  ⟨rfl, fun _ _ => rfl, by simp, by simp⟩

/-- Settles O37: each step of a run keeps what its bound register holds, and the halt shows the register file. -/
theorem finalValueOfTheBoundRegister : Obligations.FinalValueOfTheBoundRegister := by
  intro inp s t ip k hacc hip h hhalted
  rw [launch_of_acceptable hacc] at h
  obtain ⟨hvalid, hidx, -⟩ := acceptLaunch_binds hacc hip
  have ht := runSteps_keeps (fun _ _ => State.BoundHistory.step hvalid) (acceptLaunch_boundHistory inp s) h
  obtain ⟨hout, hfinal⟩ := ht.halted hhalted
  rw [pcOutside_iff, ht.cfg, acceptLaunch_len] at hout
  refine ⟨t.regs, by rw [result_of_halted hhalted, hfinal]; rfl, hout, fun hpos => ?_, fun hzero => ?_⟩
  · obtain ⟨-, hget⟩ := ht.bound (.inr hhalted) hpos
    rwa [hidx] at hget
  · rw [ht.initial (.inr hhalted) hzero]

end Sys2Proof.Machine
